-- ==== Sys2Proof/Word.lean ====
section
/-! DEFINITION. The word types of the block: the 10-bit instruction word (R80) and the byte (R7 DATA_W). -/

namespace Sys2Proof

/-- A byte: the width of the data lines and of every scalar argument (R7, R13). -/
abbrev Byte := BitVec 8

/-- An instruction word, bit layout RS, RW, D7..D0, most significant first (R10, R80). -/
abbrev Word10 := BitVec 10

end Sys2Proof
end

