-- ==== Sys2Proof/Syntax.lean ====
section
/-! DEFINITION. The instructions: one constructor for each row of spec/opcode_table.json, in the table's order. The
three formats are the instruction words (W10), the read selectors (RSEL) and the operations (CMD5). -/

namespace Sys2Proof

/-- One constructor for each row of the opcode table. -/
inductive Instr where
  -- W10: the nine instruction words (R82)
  /-- Clear display, R84. -/
  | wClear
  /-- Return home, R85. -/
  | wHome
  /-- Entry mode set: increment, shift on write, R86. -/
  | wEntry (x y : Bool)
  /-- Display/cursor control: display on, cursor on, blink on, R87. -/
  | wDispctl (d c b : Bool)
  /-- Cursor/display shift: shift the display, to the right, R88. -/
  | wShift (sh d : Bool)
  /-- Function set: 8-bit bus, two lines, 5x10 font, R89. -/
  | wFuncset (l n f : Bool)
  /-- Set CGRAM address, R90. -/
  | wSetcg (a : BitVec 6)
  /-- Set DDRAM address, R91. -/
  | wSetdd (a : BitVec 7)
  /-- Write data byte, R92. -/
  | wData (v : Byte)
  -- RSEL: the two read selectors (R99)
  | statusRead
  | dataRead
  -- CMD5: the twenty operations (R100)
  | clear
  | returnHome
  | entryModeSet (increment shift : Byte)
  | displayControl (display cursor blink : Byte)
  | shiftCursor (right : Byte)
  | moveCursor (line column : Byte)
  | getCurrentLine
  | shiftDisplay (right : Byte)
  | shiftDisplayRight (n : Nat)
  | shiftDisplayLeft (n : Nat)
  | functionSet (bits lines font : Byte)
  | writeByte (byte : Byte)
  | writeCharacter (ch : Byte)
  /-- A length and the bytes the host presents on str_data (R181). -/
  | writeString (len : Nat) (text : List Byte)
  | setCGRAMAddress (addr : Byte)
  | setDDRAMAddress (addr : Byte)
  | isBusy
  | readAddressCounter
  | readByte
  | initializeDisplay
deriving DecidableEq, Repr

/-- What the host presents at the command port: cmd_op, cmd_a, cmd_b, cmd_c, cmd_n, and the bytes str_data will show
(R32, R100). -/
structure Command where
  op : BitVec 5
  a : Byte
  b : Byte
  c : Byte
  n : Nat
  stream : List Byte
deriving DecidableEq, Repr

/-- What the decoder reads: a word for the lines, a read selector (bit 1 is rs, bit 0 is rw, R99), or a command. -/
inductive Encoded where
  | word (w : Word10)
  | selector (sel : BitVec 2)
  | command (c : Command)
deriving DecidableEq, Repr

/-- Why the decoder rejects. -/
inductive Reject where
  /-- A 10-bit value no constructor builds (R96, R97). Safe: the block never emits one. -/
  | notAnInstructionWord (w : Word10)
  /-- A read selector with rw = 0 (R99, R116). Safe: no rule produces one. -/
  | notAReadSelector (sel : BitVec 2)
  /-- A reserved operation code, 20 to 31 (R100). Safe: R217 (1) says to refuse it. -/
  | reservedOperation (code : BitVec 5)
deriving DecidableEq, Repr

/-- The operations a host can present, as against the words and selectors the sequencer issues (R2, R235). -/
def Instr.isOperation : Instr → Bool
  | .wClear | .wHome | .wEntry _ _ | .wDispctl _ _ _ | .wShift _ _ | .wFuncset _ _ _ => false
  | .wSetcg _ | .wSetdd _ | .wData _ | .statusRead | .dataRead => false
  | .clear | .returnHome | .entryModeSet _ _ | .displayControl _ _ _ | .shiftCursor _ => true
  | .moveCursor _ _ | .getCurrentLine | .shiftDisplay _ | .shiftDisplayRight _ | .shiftDisplayLeft _ => true
  | .functionSet _ _ _ | .writeByte _ | .writeCharacter _ | .writeString _ _ | .setCGRAMAddress _ => true
  | .setDDRAMAddress _ | .isBusy | .readAddressCounter | .readByte | .initializeDisplay => true

end Sys2Proof
end

