-- ==== Sys2Proof/WellFormed.lean ====
section
/-! DEFINITION. Well-formedness of an instruction. Every operand width is in its type, so the one check left is that a
string has as many bytes as its length says (R181: "a finite sequence of len >= 0 bytes"). -/

namespace Sys2Proof

/-- The one check on an instruction that its types do not make (R181). -/
def Instr.wellFormed : Instr → Bool
  | .writeString len text => text.length == len
  | .wClear | .wHome | .wEntry _ _ | .wDispctl _ _ _ | .wShift _ _ | .wFuncset _ _ _ => true
  | .wSetcg _ | .wSetdd _ | .wData _ | .statusRead | .dataRead => true
  | .clear | .returnHome | .entryModeSet _ _ | .displayControl _ _ _ | .shiftCursor _ => true
  | .moveCursor _ _ | .getCurrentLine | .shiftDisplay _ | .shiftDisplayRight _ | .shiftDisplayLeft _ => true
  | .functionSet _ _ _ | .writeByte _ | .writeCharacter _ | .setCGRAMAddress _ => true
  | .setDDRAMAddress _ | .isBusy | .readAddressCounter | .readByte | .initializeDisplay => true

end Sys2Proof
end

