-- ==== Sys2Proof/Decode.lean ====
section
/-! DEFINITION. Decoding, total on every word, selector and command, rejecting by name; and the encoder, with the
nine word constructors W_CLEAR to W_DATA (R84 to R92) that the operations build their words with. -/

namespace Sys2Proof

/-! The word constructors, R84 to R92. -/

def boolBit (b : Bool) : Word10 := if b then 1#10 else 0#10

/-- R84. -/
def wordClear : Word10 := 0x001#10
/-- R85. -/
def wordHome : Word10 := 0x002#10
/-- R86. -/
def wordEntry (x y : Bool) : Word10 := 0x004#10 ||| boolBit x <<< 1 ||| boolBit y
/-- R87. -/
def wordDispctl (d c b : Bool) : Word10 := 0x008#10 ||| boolBit d <<< 2 ||| boolBit c <<< 1 ||| boolBit b
/-- R88. -/
def wordShift (sh d : Bool) : Word10 := 0x010#10 ||| boolBit sh <<< 3 ||| boolBit d <<< 2
/-- R89. -/
def wordFuncset (l n f : Bool) : Word10 := 0x020#10 ||| boolBit l <<< 4 ||| boolBit n <<< 3 ||| boolBit f <<< 2
/-- R90. -/
def wordSetcg (a : BitVec 6) : Word10 := 0x040#10 ||| a.setWidth 10
/-- R91. -/
def wordSetdd (a : BitVec 7) : Word10 := 0x080#10 ||| a.setWidth 10
/-- R92. -/
def wordData (v : Byte) : Word10 := 0x200#10 ||| v.setWidth 10

/-- The selector of a status read, (rs, rw) = (0, 1) (R99). -/
def selectorStatus : BitVec 2 := 0b01#2
/-- The selector of a data read, (rs, rw) = (1, 1) (R99). -/
def selectorData : BitVec 2 := 0b11#2

/-- R96: `class(w)`, total, by exact match against the images of the constructors. -/
def decodeWord (w : Word10) : Except Reject Instr :=
  if w[8] then .error (.notAnInstructionWord w)
  else if w[9] then .ok (.wData (w.extractLsb' 0 8))
  else if w[7] then .ok (.wSetdd (w.extractLsb' 0 7))
  else if w[6] then .ok (.wSetcg (w.extractLsb' 0 6))
  else if w[5] && w.extractLsb' 0 2 == 0#2 then .ok (.wFuncset w[4] w[3] w[2])
  else if w[4] && !w[5] && w.extractLsb' 0 2 == 0#2 then .ok (.wShift w[3] w[2])
  else if w[3] && !w[5] && !w[4] then .ok (.wDispctl w[2] w[1] w[0])
  else if w[2] && !w[5] && !w[4] then .ok (.wEntry w[1] w[0])
  else if w == 0x002#10 then .ok .wHome
  else if w == 0x001#10 then .ok .wClear
  else .error (.notAnInstructionWord w)

/-- R99: a read selector; rw = 0 selects no read. -/
def decodeSelector (sel : BitVec 2) : Except Reject Instr :=
  if sel == selectorStatus then .ok .statusRead
  else if sel == selectorData then .ok .dataRead
  else .error (.notAReadSelector sel)

/-- R100: the operation codes and the ports that carry the arguments; an unused port is ignored. -/
def decodeCommand (k : Command) : Except Reject Instr :=
  match k.op.toNat with
  | 0 => .ok .clear
  | 1 => .ok .returnHome
  | 2 => .ok (.entryModeSet k.a k.b)
  | 3 => .ok (.displayControl k.a k.b k.c)
  | 4 => .ok (.shiftCursor k.a)
  | 5 => .ok (.moveCursor k.a k.b)
  | 6 => .ok .getCurrentLine
  | 7 => .ok (.shiftDisplay k.a)
  | 8 => .ok (.shiftDisplayRight k.n)
  | 9 => .ok (.shiftDisplayLeft k.n)
  | 10 => .ok (.functionSet k.a k.b k.c)
  | 11 => .ok (.writeByte k.a)
  | 12 => .ok (.writeCharacter k.a)
  | 13 => .ok (.writeString k.n (k.stream.take k.n))
  | 14 => .ok (.setCGRAMAddress k.a)
  | 15 => .ok (.setDDRAMAddress k.a)
  | 16 => .ok .isBusy
  | 17 => .ok .readAddressCounter
  | 18 => .ok .readByte
  | 19 => .ok .initializeDisplay
  | _ => .error (.reservedOperation k.op)

/-- The decoder, total on everything that can be presented. -/
def decode : Encoded → Except Reject Instr
  | .word w => decodeWord w
  | .selector sel => decodeSelector sel
  | .command k => decodeCommand k

/-- A command with the given code and scalar arguments, no count and no string. -/
def command (op : BitVec 5) (a b c : Byte) : Encoded :=
  .command { op := op, a := a, b := b, c := c, n := 0, stream := [] }

/-- A command with the given code, count and string. -/
def countedCommand (op : BitVec 5) (n : Nat) (stream : List Byte) : Encoded :=
  .command { op := op, a := 0#8, b := 0#8, c := 0#8, n := n, stream := stream }

/-- The encoder (R84 to R92, R99, R100); a port an operation does not use is driven to 0. -/
def encode : Instr → Encoded
  | .wClear => .word wordClear
  | .wHome => .word wordHome
  | .wEntry x y => .word (wordEntry x y)
  | .wDispctl d c b => .word (wordDispctl d c b)
  | .wShift sh d => .word (wordShift sh d)
  | .wFuncset l n f => .word (wordFuncset l n f)
  | .wSetcg a => .word (wordSetcg a)
  | .wSetdd a => .word (wordSetdd a)
  | .wData v => .word (wordData v)
  | .statusRead => .selector selectorStatus
  | .dataRead => .selector selectorData
  | .clear => command 0#5 0#8 0#8 0#8
  | .returnHome => command 1#5 0#8 0#8 0#8
  | .entryModeSet increment shift => command 2#5 increment shift 0#8
  | .displayControl display cursor blink => command 3#5 display cursor blink
  | .shiftCursor right => command 4#5 right 0#8 0#8
  | .moveCursor line column => command 5#5 line column 0#8
  | .getCurrentLine => command 6#5 0#8 0#8 0#8
  | .shiftDisplay right => command 7#5 right 0#8 0#8
  | .shiftDisplayRight n => countedCommand 8#5 n []
  | .shiftDisplayLeft n => countedCommand 9#5 n []
  | .functionSet bits lines font => command 10#5 bits lines font
  | .writeByte byte => command 11#5 byte 0#8 0#8
  | .writeCharacter ch => command 12#5 ch 0#8 0#8
  | .writeString len text => countedCommand 13#5 len text
  | .setCGRAMAddress addr => command 14#5 addr 0#8 0#8
  | .setDDRAMAddress addr => command 15#5 addr 0#8 0#8
  | .isBusy => command 16#5 0#8 0#8 0#8
  | .readAddressCounter => command 17#5 0#8 0#8 0#8
  | .readByte => command 18#5 0#8 0#8 0#8
  | .initializeDisplay => command 19#5 0#8 0#8 0#8

/-- What the table's numbers stand for: a W10 row has ten bits, two bytes as whole bytes; a CMD5 row five bits, one byte;
an RSEL row two bits. A one-byte number is read as a command (log 4). Operand ports without bits in the table are 0. -/
def encodedOfTable (nbits w : Nat) : Option Encoded :=
  if nbits = 2 then (if w < 4 then some (.selector (BitVec.ofNat 2 w)) else none)
  else if nbits = 5 ∨ nbits = 8 then (if w < 32 then some (command (BitVec.ofNat 5 w) 0#8 0#8 0#8) else none)
  else if nbits = 10 ∨ nbits = 16 then (if w < 1024 then some (.word (BitVec.ofNat 10 w)) else none)
  else none

/-- The instruction the decoder reads from a row's bits, numbered as the opcode table numbers them. -/
def decodeTableWord (nbits w : Nat) : Option Instr :=
  match encodedOfTable nbits w with
  | none => none
  | some x =>
    match decode x with
    | .ok i => some i
    | .error _ => none

end Sys2Proof
end

