-- ==== Sys2Proof/Config.lean ====
section
/-! DEFINITION. The open parameters of the spec (R9) and the free values: constants with no body, of which no
proof can see the value. -/

namespace Sys2Proof

/-- The open parameters of R9. They are fixed for one machine; `State` carries them so that a statement ranges over
every choice of them. `N_W` has no field: the count is an unbounded natural, as R9 says a model takes it. -/
structure Params where
  /-- MAX_POLLS: `none` is unbounded, the default (R9, R132). -/
  maxPolls : Option Nat
  /-- LINE_UNKNOWN: the code of the unknown line on rsp_data (R9, R161). -/
  lineUnknown : Byte
  /-- E_ACTIVE: the logic level of an asserted enable line (R9, R117). -/
  eActive : Bool
  /-- DELAY_RES in nanoseconds (R9, R114). -/
  delayRes : Nat
  /-- MARGIN in nanoseconds, added to the startup wait (R9, R8). -/
  margin : Nat
  /-- F_CLK in hertz; `none` is free, the default. No rule reads it (R246). -/
  fClk : Option Nat
deriving DecidableEq, Repr

/-- FREE VALUE (log 5): the n-th free draw: a sampled byte of the oracle (R70), or a choice of the reference chip. -/
opaque Config.freeValue : Nat → Nat

/-- FREE VALUE (log 11): MARGIN, of which R9 says only that it is not negative. -/
opaque Config.freeMargin : Nat

/-- FREE VALUE (log 13): the level of str_data when the host presents no byte, at the n-th pulse of str_pop. -/
opaque Config.freeStringByte : Nat → Byte

/-- The defaults of R9. -/
def Params.default : Params :=
  { maxPolls := none, lineUnknown := 0#8, eActive := true, delayRes := 1000, margin := Config.freeMargin, fClk := none }

/-- The constraints R9, R132 and D15 put on the parameters. -/
def Params.wf (p : Params) : Bool :=
  p.maxPolls != some 0 && p.lineUnknown != 1#8 && p.lineUnknown != 2#8 && decide (1 ≤ p.delayRes)

end Sys2Proof
end

