-- ==== Sys2Proof/Machine/State.lean ====
section
/-! DEFINITION. The state of the machine as plain data: the block (R20 to R31), what stands outside it and a step reads
(the host, the environment), the open parameters, and the observation of R12. -/

namespace Sys2Proof.Machine

/-! Events and results (R12). -/

/-- The minimum waits of R8. -/
inductive Wait where
  | setup | pulse | hold | dataValid | addressSettle | startup
deriving DecidableEq, Repr

/-- The eleven lines the block drives (R12, R22, C1). -/
inductive BusLine where
  | rs | rw | data (k : Fin 8) | enable
deriving DecidableEq, Repr

/-- The mode of the data-line group (R12, R22 DDIR): `inward` is IN, `outward` is OUT. -/
inductive Direction where
  | inward | outward
deriving DecidableEq, Repr

/-- The events of the bus trace (R12). -/
inductive Event where
  /-- `Line(l, v)`. -/
  | line (l : BusLine) (v : Bool)
  /-- `Dir(m)`. -/
  | dir (m : Direction)
  /-- `Delay(k)`. -/
  | delay (k : Wait)
  /-- `Sample(v)`. -/
  | sample (v : Byte)
  /-- `TimingEnable`. -/
  | timingEnable
deriving DecidableEq, Repr

/-- The events of the transaction-level trace (R12). -/
inductive BusTransaction where
  /-- `W(w)`. -/
  | write (w : Word10)
  /-- `R(rs, rw, v)`. -/
  | read (rs rw : Bool) (v : Byte)
  | delay (k : Wait)
  | timingEnable
deriving DecidableEq, Repr

/-- The three answers of `classifyAddress` (R161). -/
inductive DisplayLine where
  | line1 | line2 | unknown
deriving DecidableEq, Repr

/-- The result an operation returns (R13), or the end HardwareUnresponsive gives it (R207). -/
inductive Result where
  | nothing
  | busy (b : Bool)
  | address (a : BitVec 7)
  | line (l : DisplayLine)
  | byte (v : Byte)
  | unresponsive
deriving DecidableEq, Repr

/-! Control state. -/

/-- The initialization phase (R24). -/
inductive Phase where
  | powerOn | functionConfigured | displayConfigured | entryConfigured | cleared | ready
deriving DecidableEq, Repr

/-- What an operation returns, computed from the byte its last read transaction sampled (R135, R163, R164, R182). -/
inductive Reply where
  | nothing | busy | counter | displayLine | byte
deriving DecidableEq, Repr

/-- One line of an operation's pseudocode (R130 to R195): the positions SEQ runs through (R25). -/
inductive Action where
  /-- `AwaitReady` (R130), with the number of polls made, counted only when MAX_POLLS is finite (R25). -/
  | awaitReady (polls : Nat)
  /-- `Delay(k)` outside a transaction (R133, R190). -/
  | delay (k : Wait)
  /-- `emit TimingEnable` (R190). -/
  | enableTiming
  /-- `PHASE <- p` (R190). -/
  | enterPhase (p : Phase)
  /-- Taking one byte of a string, with its pulse of str_pop (R32). -/
  | takeByte
  /-- `WriteTransaction(w)` (R110). -/
  | write (w : Word10)
  /-- `ReadTransaction(rs, rw)` (R111), by its selector. -/
  | read (sel : BitVec 2)
  /-- `return`, with the result. -/
  | respond (r : Reply)
deriving DecidableEq, Repr

/-- SEQ (R25): idle, or running an operation (with its arguments: the operand latches of R26) from a position. The
position is what is left of the pseudocode; its loop counters are in it. -/
inductive Sequencer where
  | idle
  | running (op : Instr) (todo : List Action)
deriving DecidableEq, Repr

/-! The environment. -/

/-- A supply of free draws: the listed ones first, then `Config.freeValue` at the counter (log 5). -/
structure Draws where
  script : List Nat
  count : Nat
deriving DecidableEq, Repr

/-- The chip's two memories (R50). -/
inductive Space where
  | ddram | cgram
deriving DecidableEq, Repr

/-- A chip memory: the cells that do not hold the blank code, by rising address (log 15). -/
abbrev Memory := List Host.Cell

/-- The optional reference chip (R74). It is part of the environment, never of the block (R20). -/
structure Chip where
  /-- C.BUSY: how many more status reads will show busy. -/
  busy : Nat
  /-- C.AC. -/
  ac : BitVec 7
  /-- C.SEL. -/
  sel : Space
  /-- C.ID, increment. -/
  increment : Bool
  /-- C.S, shift on write. -/
  shiftOnWrite : Bool
  /-- C.D. -/
  displayOn : Bool
  /-- C.C. -/
  cursorOn : Bool
  /-- C.B. -/
  blinkOn : Bool
  /-- C.DL, 8-bit bus. -/
  eightBit : Bool
  /-- C.N, two lines. -/
  twoLines : Bool
  /-- C.F, 5x10 font. -/
  bigFont : Bool
  /-- C.DDRAM. -/
  ddram : Memory
  /-- C.CGRAM. -/
  cgram : Memory
  /-- C.SHIFT, in places to the right (log 15). -/
  shift : Int
  /-- "if l = 0 refuse from here on" (R74, R243). -/
  refusing : Bool
  /-- The chip's free choices. -/
  draws : Draws
deriving DecidableEq, Repr

/-- The environment: the oracle of R70, or the reference chip of R74. -/
inductive Env where
  | oracle (answers : Draws)
  | reference (chip : Chip)
deriving DecidableEq, Repr

/-! The state. -/

/-- The whole machine. -/
structure State where
  /-- The open parameters (R9); no step writes them. -/
  params : Params
  /-- RS (R22). -/
  rs : Bool
  /-- RW (R22). -/
  rw : Bool
  /-- DB_OUT (R22). -/
  dbOut : Byte
  /-- E, true when asserted (R22). -/
  e : Bool
  /-- DDIR (R22). -/
  ddir : Direction
  /-- PHASE (R24). -/
  phase : Phase
  /-- SEQ with the operand latches (R25, R26). -/
  seq : Sequencer
  /-- The byte the last read transaction of the operation in flight returned (R23); 0 when there is none. -/
  sampled : Byte
  /-- hw_fault (R207). -/
  hwFault : Bool
  /-- rsp_valid with rsp_data (R32): `some d` in the state a completion leaves. -/
  rsp : Option Byte
  /-- The external timing subsystem (R30, R31). -/
  timingEnabled : Bool
  /-- The reset pin rst (R32, R230). -/
  rst : Bool
  /-- The commands the host will present, in order; cmd_valid is 1 when there is one (R32). -/
  host : List Command
  /-- What answers the bus (R70, R74). -/
  env : Env
  /-- The bus trace (R12), oldest event first: the model's own. -/
  trace : List Event
  /-- The results returned (R12), oldest first: the model's own. -/
  results : List Result
  /-- How many str_pop pulses there have been (R32): the model's own. -/
  strPops : Nat
deriving DecidableEq, Repr

/-- The machine raises no fault: "The block raises no synchronous exception" (R200). The one exceptional end,
HardwareUnresponsive, is a next state (R207). Safe: there is nothing to raise. -/
inductive Fault
deriving DecidableEq, Repr

/-- Why a step refuses: the closed list of R217, and the decoder's rejections. All are safe: the model stops. -/
inductive Refusal where
  /-- An arm of `exec` without a meaning; none is left. -/
  | notModelled (mnemonic : String)
  /-- The fetch: what is presented decodes to no instruction (R96, R99, R100; R217 (1)). Safe. -/
  | rejected (why : Reject)
  /-- An operation other than initialize accepted while PHASE is not Ready (R194 (a); R217 (2)). Safe. -/
  | notReady (phase : Phase)
  /-- `WriteTransaction` with w[8] = 1 (R116; R217 (3)). Safe: no rule produces it. -/
  | writeWithRwSet
  /-- `ReadTransaction` with rw = 0 (R116; R217 (3)). Safe: no rule produces it. -/
  | readWithRwClear
  /-- A transaction begun with E = 1 or DDIR = IN (R33; R217 (4)). Safe: no rule produces it. -/
  | busNotAtRest
  /-- rst asserted while an operation runs (R231; R217 (5)). Safe. -/
  | resetWhileRunning
  /-- The reference chip: an instruction word or a data read while busy (R74; R217 (6)). Safe. -/
  | chipBusy
  /-- The reference chip: a data access at an address that is no cell (R52, R74; R217 (6)). Safe. -/
  | chipGap
  /-- The reference chip: anything after function set with l = 0 (R74, R243; R217 (6)). Safe. -/
  | chipNarrowBus
  /-- The reference chip: a value no constructor builds (R74). Safe: the block never emits one. -/
  | chipNoInstruction
deriving DecidableEq, Repr

/-- R31, with the model's choices for what R31 leaves out (log 5, 6, 9, 10, 18). -/
def State.reset : State :=
  { params := Params.default
    rs := false
    rw := false
    dbOut := 0x00#8
    e := false
    ddir := .outward
    phase := .powerOn
    seq := .idle
    sampled := 0x00#8
    hwFault := false
    rsp := none
    timingEnabled := false
    rst := false
    host := []
    env := .oracle { script := [], count := 0 }
    trace := []
    results := []
    strPops := 0 }

end Sys2Proof.Machine
end

