-- ==== Sys2Proof/Machine/Environment.lean ====
section
/-! DEFINITION. What answers the bus: the oracle (R70), which answers every read with a free draw and takes every word,
and the reference chip (R74), with its two memories. -/

namespace Sys2Proof.Machine

/-! Free draws. -/

/-- The next free draw. -/
def Draws.next (d : Draws) : Nat × Draws :=
  match d.script with
  | v :: rest => (v, { d with script := rest })
  | [] => (Config.freeValue d.count, { d with count := d.count + 1 })

/-! The chip's memories, in canonical form. -/

/-- What an address that is not listed reads as: the blank code 0x20, which is what clear display leaves (R74). -/
def Memory.blank : Byte := 0x20#8

/-- One byte. -/
def Memory.read : Memory → Nat → Byte
  | [], _ => Memory.blank
  | (b, v) :: rest, a => if b = a then v else Memory.read rest a

/-- The cell an address gets: none when it holds the blank code. -/
def Memory.cell (a : Nat) (v : Byte) : List Host.Cell := if v = Memory.blank then [] else [(a, v)]

/-- Write one byte, keeping the canonical form. -/
def Memory.write : Memory → Nat → Byte → Memory
  | [], a, v => Memory.cell a v
  | (b, u) :: rest, a, v =>
    if a < b then Memory.cell a v ++ (b, u) :: rest
    else if a = b then Memory.cell a v ++ rest
    else (b, u) :: Memory.write rest a v

/-- The canonical form: addresses strictly rising, no blank entry. -/
abbrev Memory.wf (m : Memory) : Prop :=
  m.Pairwise (fun p q => p.1 < q.1) ∧ ∀ c ∈ m, c.2 ≠ Memory.blank

/-! The reference chip (R74). -/

/-- The DDRAM cells (R51). -/
def isDdramCell (a : BitVec 7) : Bool :=
  decide (a.toNat ≤ 0x27) || (decide (0x40 ≤ a.toNat) && decide (a.toNat ≤ 0x67))

/-- step(a, up) of R74. In DDRAM outside the four wraps the counter is a 7-bit register; in CGRAM it is modulo 64. -/
def addressStep (space : Space) (a : BitVec 7) (up : Bool) : BitVec 7 :=
  match space with
  | .ddram =>
    if up then (if a = 0x27#7 then 0x40#7 else if a = 0x67#7 then 0x00#7 else a + 1#7)
    else (if a = 0x00#7 then 0x67#7 else if a = 0x40#7 then 0x27#7 else a - 1#7)
  | .cgram =>
    if up then BitVec.ofNat 7 ((a.toNat + 1) % 64) else BitVec.ofNat 7 ((a.toNat + 63) % 64)

/-- Whether a data access at the address counter reaches a cell (R52, R53, R74). -/
def Chip.atCell (c : Chip) : Bool :=
  match c.sel with
  | .ddram => isDdramCell c.ac
  | .cgram => decide (c.ac.toNat < 64)

/-- The memory the address counter points into (R54). -/
def Chip.memory (c : Chip) : Memory :=
  match c.sel with
  | .ddram => c.ddram
  | .cgram => c.cgram

/-- The cell the address counter points at. -/
def Chip.readCell (c : Chip) : Byte := Memory.read c.memory c.ac.toNat

/-- Write that cell. -/
def Chip.writeCell (c : Chip) (v : Byte) : Chip :=
  match c.sel with
  | .ddram => { c with ddram := Memory.write c.ddram c.ac.toNat v }
  | .cgram => { c with cgram := Memory.write c.cgram c.ac.toNat v }

/-- The address counter moves by one per the entry mode (R62, R74). -/
def Chip.advance (c : Chip) : Chip := { c with ac := addressStep c.sel c.ac c.increment }

/-- C.BUSY gets a fresh draw (R74). -/
def Chip.startBusy (c : Chip) : Chip :=
  let d := c.draws.next
  { c with busy := d.1, draws := d.2 }

/-- The effect of an instruction of each class (R74); the other constructors are no instruction words.
DESIGN CHOICE (log 15): C.SHIFT counts places to the right, so right is +1 and left is -1; R74 gives it no sign. -/
def Chip.execute (c : Chip) : Instr → Except Refusal Chip
  | .wClear => .ok { c with ddram := [], ac := 0#7, sel := .ddram, shift := 0, increment := true }
  | .wHome => .ok { c with ac := 0#7, sel := .ddram, shift := 0 }
  | .wEntry x y => .ok { c with increment := x, shiftOnWrite := y }
  | .wDispctl d cur b => .ok { c with displayOn := d, cursorOn := cur, blinkOn := b }
  | .wShift sh d =>
    .ok (if sh then { c with shift := if d then c.shift + 1 else c.shift - 1 }
      else { c with ac := addressStep c.sel c.ac d })
  | .wFuncset l n f => .ok { c with eightBit := l, twoLines := n, bigFont := f, refusing := c.refusing || !l }
  | .wSetcg a => .ok { c with ac := a.setWidth 7, sel := .cgram }
  | .wSetdd a => .ok { c with ac := a, sel := .ddram }
  | .wData v => if c.atCell then .ok (c.writeCell v).advance else .error .chipGap
  | .statusRead | .dataRead => .error .chipNoInstruction
  | .clear | .returnHome | .entryModeSet _ _ | .displayControl _ _ _ | .shiftCursor _ => .error .chipNoInstruction
  | .moveCursor _ _ | .getCurrentLine | .shiftDisplay _ | .shiftDisplayRight _ => .error .chipNoInstruction
  | .shiftDisplayLeft _ | .functionSet _ _ _ | .writeByte _ | .writeCharacter _ => .error .chipNoInstruction
  | .writeString _ _ | .setCGRAMAddress _ | .setDDRAMAddress _ | .isBusy => .error .chipNoInstruction
  | .readAddressCounter | .readByte | .initializeDisplay => .error .chipNoInstruction

/-- The chip's reaction to `W(w)` (R74). -/
def Chip.write (c : Chip) (w : Word10) : Except Refusal Chip :=
  if c.refusing then .error .chipNarrowBus
  else if c.busy ≠ 0 then .error .chipBusy
  else
    match decodeWord w with
    | .error _ => .error .chipNoInstruction
    | .ok i =>
      match c.execute i with
      | .error r => .error r
      | .ok c' => .ok c'.startBusy

/-- The chip's reaction to a status read (R74). -/
def Chip.readStatus (c : Chip) : Except Refusal (Byte × Chip) :=
  if c.refusing then .error .chipNarrowBus
  else if c.busy ≠ 0 then
    let d := c.draws.next
    .ok (0x80#8 ||| (BitVec.ofNat 7 d.1).setWidth 8, { c with busy := c.busy - 1, draws := d.2 })
  else .ok (c.ac.setWidth 8, c)

/-- The chip's reaction to a data read (R74). -/
def Chip.readData (c : Chip) : Except Refusal (Byte × Chip) :=
  if c.refusing then .error .chipNarrowBus
  else if c.busy ≠ 0 then .error .chipBusy
  else if c.atCell then .ok (c.readCell, c.advance.startBusy)
  else .error .chipGap

/-! The environment as the block sees it. -/

/-- The byte on the data lines at `sample()`, for a status read (rs = 0) or a data read (rs = 1) (R23, R70, R99). -/
def Env.read (env : Env) (rs : Bool) : Except Refusal (Byte × Env) :=
  match env with
  | .oracle d =>
    let n := d.next
    .ok (BitVec.ofNat 8 n.1, .oracle n.2)
  | .reference c =>
    match if rs then c.readData else c.readStatus with
    | .error r => .error r
    | .ok (v, c') => .ok (v, .reference c')

/-- The environment takes the word a write transaction latches into it (R70, R74). -/
def Env.write (env : Env) (w : Word10) : Except Refusal Env :=
  match env with
  | .oracle d => .ok (.oracle d)
  | .reference c =>
    match c.write w with
    | .error r => .error r
    | .ok c' => .ok (.reference c')

end Sys2Proof.Machine
end

