-- ==== Sys2Proof/Machine/Operands.lean ====
section
/-! DEFINITION. Operand forms: `bool` (R93), truncation (R94), clamping and the DDRAM mapping (R160), classification
(R161), a string's bytes (R181), and the bit helper of the data latch. -/

namespace Sys2Proof.Machine

/-- `bool(v)` (R93): not bit 0, but whether any bit is set. -/
def boolOf (v : Byte) : Bool := v != 0#8

/-- The 6-bit payload of a CGRAM address: the top two bits are discarded (R94). -/
def cgramPayload (addr : Byte) : BitVec 6 := addr.extractLsb' 0 6

/-- The 7-bit payload of a DDRAM address: the top bit is discarded (R94). -/
def ddramPayload (addr : Byte) : BitVec 7 := addr.extractLsb' 0 7

/-- `clamp(v, lo, hi)` (R11). -/
def clamp (v lo hi : Nat) : Nat := if v < lo then lo else if hi < v then hi else v

/-- `toDDRAMAddress(line, column)` (R160). -/
def toDDRAMAddress (line column : Byte) : BitVec 7 :=
  let l := clamp line.toNat 1 2
  let c := clamp column.toNat 1 40
  let base := if l = 1 then 0x00 else 0x40
  BitVec.ofNat 7 (base + (c - 1))

/-- `classifyAddress(address)` (R161), for every 8-bit value (D28). -/
def classifyAddress (address : Byte) : DisplayLine :=
  if address.toNat ≤ 0x27 then .line1
  else if 0x40 ≤ address.toNat ∧ address.toNat ≤ 0x67 then .line2
  else .unknown

/-- The code of a line on rsp_data (R100, R161). -/
def lineCode (p : Params) : DisplayLine → Byte
  | .line1 => 1#8
  | .line2 => 2#8
  | .unknown => p.lineUnknown

/-- The `len` bytes of a string, the first taken at pulse number `start` of str_pop: the presented ones, then free bytes
where the host presents none (R181, log 13). -/
def stringBytes : Nat → List Byte → Nat → List Byte
  | 0, _, _ => []
  | len + 1, [], start => Config.freeStringByte start :: stringBytes len [] (start + 1)
  | len + 1, b :: rest, start => b :: stringBytes len rest (start + 1)

/-- Bit `k` of the data latch set to `v`. -/
def setBit (b : Byte) (k : Fin 8) (v : Bool) : Byte :=
  if v then b ||| 1#8 <<< k.val else b &&& ~~~(1#8 <<< k.val)

end Sys2Proof.Machine
end

