-- ==== Sys2Proof/Machine/Flags.lean ====
section
/-! DEFINITION. The block has no flags (R27); what is computed from a sampled byte is here: the chip's busy flag and
address counter (R28, R136), and the results of the read operations. -/

namespace Sys2Proof.Machine

/-- `s[7]` of a status byte (R28). -/
def busyFlag (s : Byte) : Bool := s[7]

/-- `s[6:0]` of a status byte (R28, D13). -/
def addressCounter (s : Byte) : BitVec 7 := s.extractLsb' 0 7

/-- The result of an operation from the byte it sampled last (R135, R163, R164, R182). -/
def Reply.result : Reply → Byte → Result
  | .nothing, _ => .nothing
  | .busy, s => .busy (busyFlag s)
  | .counter, s => .address (addressCounter s)
  | .displayLine, s => .line (classifyAddress ((addressCounter s).setWidth 8))
  | .byte, v => .byte v

/-- rsp_data of a result (R32, R100, R207): 0 for an operation with no result. -/
def Result.data (p : Params) : Result → Byte
  | .nothing => 0#8
  | .busy b => if b then 1#8 else 0#8
  | .address a => a.setWidth 8
  | .line l => lineCode p l
  | .byte v => v
  | .unresponsive => 0#8

end Sys2Proof.Machine
end

