-- ==== Sys2Proof/Machine/Ops.lean ====
section
/-! DEFINITION. The shared operations: the line primitives (R12, R22), the two transactions (R110, R111), the poll
(R130, R132), the exceptional end HardwareUnresponsive (R207), completion (R32), one position of the sequencer (R25), the
run of an operation's positions, acceptance (R32, R194, R206) and reset (R230). -/

namespace Sys2Proof.Machine

/-- What a meaning answers. -/
abbrev Answer := Host.Outcome State Fault Refusal

/-! Updates of one field. -/

def State.setPhase (s : State) (p : Phase) : State := { s with phase := p }
def State.setSeq (s : State) (q : Sequencer) : State := { s with seq := q }
def State.setSampled (s : State) (v : Byte) : State := { s with sampled := v }
def State.setEnv (s : State) (env : Env) : State := { s with env := env }
def State.setHost (s : State) (cmds : List Command) : State := { s with host := cmds }
def State.clearResponse (s : State) : State := { s with rsp := none }

/-! The primitives of the pseudocode: each writes its latch and emits its event (R11, R12, R22). -/

/-- `emit ev`. -/
def State.emit (s : State) (ev : Event) : State := { s with trace := s.trace ++ [ev] }

/-- `RS <- v; emit Line(RS, v)`. -/
def State.driveRs (s : State) (v : Bool) : State := State.emit { s with rs := v } (.line .rs v)

/-- `RW <- v; emit Line(RW, v)`. -/
def State.driveRw (s : State) (v : Bool) : State := State.emit { s with rw := v } (.line .rw v)

/-- `DB_OUT[k] <- v; emit Line(Dk, v)`. -/
def State.driveData (s : State) (k : Fin 8) (v : Bool) : State :=
  State.emit { s with dbOut := setBit s.dbOut k v } (.line (.data k) v)

/-- `E <- asserted; emit Line(E, ..)`, at the level E_ACTIVE gives it (R9, R117). -/
def State.driveEnable (s : State) (asserted : Bool) : State :=
  State.emit { s with e := asserted } (.line .enable (asserted == s.params.eActive))

/-- `DDIR <- m; emit Dir(m)`. -/
def State.setDirection (s : State) (m : Direction) : State := State.emit { s with ddir := m } (.dir m)

/-- `Delay(k)`: the delay primitive's handshake always ends (R212, R233 P3). -/
def State.delay (s : State) (k : Wait) : State := s.emit (.delay k)

/-- `emit TimingEnable` (R190 step 2, R195). -/
def State.enableTiming (s : State) : State := State.emit { s with timingEnabled := true } .timingEnable

/-- One string byte taken from str_data, one pulse of str_pop (R32). -/
def State.takeByte (s : State) : State := { s with strPops := s.strPops + 1 }

/-! The two transactions. -/

/-- R33: the bus at rest. -/
def State.atRest (s : State) : Bool := !s.e && s.ddir == .outward

/-- The ten line writes of R110, in its order. -/
def State.driveWord (s : State) (w : Word10) : State :=
  (((((((((s.driveRs w[9]).driveRw w[8]).driveData 7 w[7]).driveData 6 w[6]).driveData 5 w[5]).driveData 4
    w[4]).driveData 3 w[3]).driveData 2 w[2]).driveData 1 w[1]).driveData 0 w[0]

/-- `WriteTransaction(w)` (R110), refused as R116 and R217 (3), (4) say. The chip takes the word at the strobe. -/
def writeTransaction (w : Word10) (s : State) : Answer :=
  if w[8] then .refused .writeWithRwSet
  else if !s.atRest then .refused .busNotAtRest
  else
    match s.env.write w with
    | .error r => .refused r
    | .ok env =>
      .next (((((((s.driveWord w).delay .setup).driveEnable true).setEnv env).delay .pulse).driveEnable false).delay
        .hold)

/-- `ReadTransaction(rs, rw)` (R111) with the byte it returns, refused as R116 and R217 (3), (4) say. -/
def readBus (rs rw : Bool) (s : State) : Except Refusal (Byte × State) :=
  if !rw then .error .readWithRwClear
  else if !s.atRest then .error .busNotAtRest
  else
    match s.env.read rs with
    | .error r => .error r
    | .ok (v, env) =>
      .ok (v, ((((((((((s.driveRs rs).driveRw rw).setDirection .inward).delay .setup).driveEnable true).delay
        .dataValid).setEnv env).emit (.sample v)).driveEnable false).delay .hold).setDirection .outward)

/-- `ReadTransaction(rs, rw)`, its byte kept for the operation that asked for it (R23). -/
def readTransaction (rs rw : Bool) (s : State) : Answer :=
  match readBus rs rw s with
  | .error r => .refused r
  | .ok (v, t) => .next (t.setSampled v)

/-! Completion, and the exceptional end. -/

/-- An operation ends: rsp_valid is pulsed with the result, SEQ is Idle, and the sampled byte is gone (R23, R32). -/
def State.complete (s : State) (r : Result) : State :=
  { s with seq := .idle, sampled := 0x00#8, rsp := some (r.data s.params), results := s.results ++ [r] }

/-- `raise HardwareUnresponsive` (R207): hw_fault is set, and the operation in flight ends with rsp_data = 0; PHASE and
the bus latches keep their values. There is no return from it (R208). -/
def State.raiseHardwareUnresponsive (s : State) : State :=
  State.complete { s with hwFault := true } .unresponsive

/-! One position of the sequencer. -/

/-- What one position does: the operation moves on, stays at a position (the chip is busy), ends, or is refused. -/
inductive Progress where
  | onward (s : State)
  | waiting (a : Action) (s : State)
  | ended (s : State)
  | refused (r : Refusal)
deriving DecidableEq, Repr

/-- After a poll that showed busy (R130, R132): poll again, or give up when MAX_POLLS polls are made. -/
def afterBusyPoll (polls : Nat) (s : State) : Progress :=
  match s.params.maxPolls with
  | none => .waiting (.awaitReady polls) s
  | some m =>
    if m ≤ polls + 1 then .ended s.raiseHardwareUnresponsive else .waiting (.awaitReady (polls + 1)) s

/-- One poll of `AwaitReady` (R130): a status read, of which only the busy flag is looked at. -/
def pollOnce (polls : Nat) (s : State) : Progress :=
  match readBus false true s with
  | .error r => .refused r
  | .ok (v, t) => if busyFlag v then afterBusyPoll polls t else .onward t

/-- A transaction's answer as progress. -/
def progressOf : Answer → Progress
  | .next t => .onward t
  | .refused r => .refused r
  | .fault f => nomatch f

/-- One position of the pseudocode (R25). -/
def act : Action → State → Progress
  | .awaitReady polls, s => pollOnce polls s
  | .delay k, s => .onward (s.delay k)
  | .enableTiming, s => .onward s.enableTiming
  | .enterPhase p, s => .onward (s.setPhase p)
  | .takeByte, s => .onward s.takeByte
  | .write w, s => progressOf (writeTransaction w s)
  | .read sel, s => progressOf (readTransaction sel[1] sel[0] s)
  | .respond r, s => .ended (s.complete (r.result s.sampled))

/-- The positions from `todo` on, in one step: to the operation's end, or to a poll that shows the chip busy. Pseudocode
that has run out returns with no result. -/
def runActions (op : Instr) : List Action → State → Answer
  | [], s => .next (s.complete .nothing)
  | a :: rest, s =>
    match act a s with
    | .onward t => runActions op rest t
    | .waiting a' t => .next (t.setSeq (.running op (a' :: rest)))
    | .ended t => .next t
    | .refused r => .refused r

/-- One position only (R25: "or as small steps one event at a time"). -/
def runOneAction (op : Instr) (todo : List Action) (s : State) : Answer :=
  match todo with
  | [] => .next (s.complete .nothing)
  | a :: rest =>
    match act a s with
    | .onward t => .next (t.setSeq (.running op rest))
    | .waiting a' t => .next (t.setSeq (.running op (a' :: rest)))
    | .ended t => .next t
    | .refused r => .refused r

/-! Acceptance. -/

/-- An operation presented in any phase: while another runs it is not accepted and nothing changes (R206); else it
runs. -/
def runInAnyPhase (op : Instr) (todo : List Action) (s : State) : Answer :=
  match s.seq with
  | .running _ _ => .next s
  | .idle => runActions op todo s.clearResponse

/-- An operation that requires PHASE = Ready when it is accepted (R194 (a)). -/
def runWhenReady (op : Instr) (todo : List Action) (s : State) : Answer :=
  match s.seq with
  | .running _ _ => .next s
  | .idle => if s.phase = .ready then runActions op todo s.clearResponse else .refused (.notReady s.phase)

/-! Reset. -/

/-- The state rst puts the block in (R31, R230); what is outside the block keeps its value. -/
def State.blockReset (s : State) : State :=
  { s with
    rs := false
    rw := false
    dbOut := 0x00#8
    e := false
    ddir := .outward
    phase := .powerOn
    seq := .idle
    sampled := 0x00#8
    hwFault := false
    rsp := none
    rst := false }

/-- rst asserted (R230): admitted only when SEQ is Idle (R231). -/
def takeReset (s : State) : Answer :=
  match s.seq with
  | .idle => .next s.blockReset
  | .running _ _ => .refused .resetWhileRunning

end Sys2Proof.Machine
end

