-- ==== Sys2Proof/Machine/WriteOperations.lean ====
section
/-! DEFINITION. The ten write operations (R140 to R150): each builds its word, waits for the chip, and writes it. -/

namespace Sys2Proof.Machine

/-- The common shape of R140: the entry guard (R134), the write transaction, and a return with no result. -/
def sendWord (w : Word10) : List Action := [.awaitReady 0, .write w, .respond .nothing]

/-- `clear` (R141). -/
def clearActions : List Action := sendWord wordClear
def execClear (s : State) : Answer := runWhenReady .clear clearActions s

/-- `return-home` (R142). -/
def returnHomeActions : List Action := sendWord wordHome
def execReturnHome (s : State) : Answer := runWhenReady .returnHome returnHomeActions s

/-- `entry-mode-set(increment, shift)` (R143). -/
def entryModeSetActions (increment shift : Byte) : List Action :=
  sendWord (wordEntry (boolOf increment) (boolOf shift))
def execEntryModeSet (increment shift : Byte) (s : State) : Answer :=
  runWhenReady (.entryModeSet increment shift) (entryModeSetActions increment shift) s

/-- `display-control(display, cursor, blink)` (R144). -/
def displayControlActions (display cursor blink : Byte) : List Action :=
  sendWord (wordDispctl (boolOf display) (boolOf cursor) (boolOf blink))
def execDisplayControl (display cursor blink : Byte) (s : State) : Answer :=
  runWhenReady (.displayControl display cursor blink) (displayControlActions display cursor blink) s

/-- `shift-cursor(right)`: s = 0 (R145). -/
def shiftCursorActions (right : Byte) : List Action := sendWord (wordShift false (boolOf right))
def execShiftCursor (right : Byte) (s : State) : Answer :=
  runWhenReady (.shiftCursor right) (shiftCursorActions right) s

/-- `shift-display(right)`: s = 1 (R146). -/
def shiftDisplayActions (right : Byte) : List Action := sendWord (wordShift true (boolOf right))
def execShiftDisplay (right : Byte) (s : State) : Answer :=
  runWhenReady (.shiftDisplay right) (shiftDisplayActions right) s

/-- `function-set(bits, lines, font)` (R147). -/
def functionSetActions (bits lines font : Byte) : List Action :=
  sendWord (wordFuncset (boolOf bits) (boolOf lines) (boolOf font))
def execFunctionSet (bits lines font : Byte) (s : State) : Answer :=
  runWhenReady (.functionSet bits lines font) (functionSetActions bits lines font) s

/-- `set-CGRAM-address(addr)` (R148). -/
def setCGRAMAddressActions (addr : Byte) : List Action := sendWord (wordSetcg (cgramPayload addr))
def execSetCGRAMAddress (addr : Byte) (s : State) : Answer :=
  runWhenReady (.setCGRAMAddress addr) (setCGRAMAddressActions addr) s

/-- `set-DDRAM-address(addr)` (R149). -/
def setDDRAMAddressActions (addr : Byte) : List Action := sendWord (wordSetdd (ddramPayload addr))
def execSetDDRAMAddress (addr : Byte) (s : State) : Answer :=
  runWhenReady (.setDDRAMAddress addr) (setDDRAMAddressActions addr) s

/-- `write-byte(byte)` (R150). -/
def writeByteActions (byte : Byte) : List Action := sendWord (wordData byte)
def execWriteByte (byte : Byte) (s : State) : Answer := runWhenReady (.writeByte byte) (writeByteActions byte) s

end Sys2Proof.Machine
end

