-- ==== Sys2Proof/Machine/Composite.lean ====
section
/-! DEFINITION. The operations defined by expansion (R102): move-cursor, the repeated shifts, the character and string
writers. -/

namespace Sys2Proof.Machine

/-- `move-cursor(line, column)` = set-DDRAM-address(toDDRAMAddress(line, column)) (R162). -/
def moveCursorActions (line column : Byte) : List Action :=
  setDDRAMAddressActions ((toDDRAMAddress line column).setWidth 8)
def execMoveCursor (line column : Byte) (s : State) : Answer :=
  runWhenReady (.moveCursor line column) (moveCursorActions line column) s

/-- The ready-waits and write transactions of a sequence of words, in order, each word after its own wait. -/
def sendWords : List Word10 → List Action
  | [] => []
  | w :: rest => .awaitReady 0 :: .write w :: sendWords rest

/-- `shift-display-right(n)`: n times the single-step shift with d = 1 (R165). -/
def shiftDisplayRightActions (n : Nat) : List Action :=
  sendWords (List.replicate n (wordShift true true)) ++ [.respond .nothing]
def execShiftDisplayRight (n : Nat) (s : State) : Answer :=
  runWhenReady (.shiftDisplayRight n) (shiftDisplayRightActions n) s

/-- `shift-display-left(n)`: n times the single-step shift with d = 0 (R166). -/
def shiftDisplayLeftActions (n : Nat) : List Action :=
  sendWords (List.replicate n (wordShift true false)) ++ [.respond .nothing]
def execShiftDisplayLeft (n : Nat) (s : State) : Answer :=
  runWhenReady (.shiftDisplayLeft n) (shiftDisplayLeftActions n) s

/-- `write-character(ch)` = write-byte(ch) (R180). -/
def writeCharacterActions (ch : Byte) : List Action := writeByteActions ch
def execWriteCharacter (ch : Byte) (s : State) : Answer :=
  runWhenReady (.writeCharacter ch) (writeCharacterActions ch) s

/-- The positions of a string: for each byte, its ready-wait and its write (R181), and its pulse of str_pop (R32).
DESIGN CHOICE (log 25): that the byte is taken, and str_pop pulses, before its ready-wait; neither rule says. -/
def sendBytes : List Byte → List Action
  | [] => []
  | b :: rest => .takeByte :: .awaitReady 0 :: .write (wordData b) :: sendBytes rest

/-- `write-string(text)` with the bytes the host presents (R181). -/
def writeStringActions (bytes : List Byte) : List Action := sendBytes bytes ++ [.respond .nothing]
def execWriteString (len : Nat) (text : List Byte) (s : State) : Answer :=
  runWhenReady (.writeString len text) (writeStringActions (stringBytes len text s.strPops)) s

end Sys2Proof.Machine
end

