-- ==== Sys2Proof/Machine/Initialization.lean ====
section
/-! DEFINITION. The initialization sequence (R190 to R195). -/

namespace Sys2Proof.Machine

/-- `initialize()` (R190), with the words of R193. -/
def initializeActions : List Action :=
  [.enterPhase .powerOn,
   .delay .startup,
   .enableTiming,
   .awaitReady 0, .write (wordFuncset true true false), .enterPhase .functionConfigured,
   .awaitReady 0, .write (wordDispctl true true false), .enterPhase .displayConfigured,
   .awaitReady 0, .write (wordEntry true false), .enterPhase .entryConfigured,
   .awaitReady 0, .write wordClear, .enterPhase .cleared,
   .enterPhase .ready,
   .respond .nothing]

/-- Accepted in any phase when the sequencer is idle (R194 (b)). -/
def execInitialize (s : State) : Answer := runInAnyPhase .initializeDisplay initializeActions s

end Sys2Proof.Machine
end

