-- ==== Sys2Proof/Machine/ReadOperations.lean ====
section
/-! DEFINITION. The operations that read the chip: is-busy (R135), read-address-counter (R163), get-current-line (R164)
and read-byte (R182). -/

namespace Sys2Proof.Machine

/-- `is-busy()`: one status read, no wait (R135). -/
def isBusyActions : List Action := [.read selectorStatus, .respond .busy]
def execIsBusy (s : State) : Answer := runWhenReady .isBusy isBusyActions s

/-- `AwaitAddressValid()` (R133), then the status read whose low bits are the counter (R163). -/
def readCounterActions (r : Reply) : List Action :=
  [.awaitReady 0, .delay .addressSettle, .read selectorStatus, .respond r]

/-- `read-address-counter()` (R163). -/
def readAddressCounterActions : List Action := readCounterActions .counter
def execReadAddressCounter (s : State) : Answer := runWhenReady .readAddressCounter readAddressCounterActions s

/-- `get-current-line()` = classifyAddress(read-address-counter()) (R164). -/
def getCurrentLineActions : List Action := readCounterActions .displayLine
def execGetCurrentLine (s : State) : Answer := runWhenReady .getCurrentLine getCurrentLineActions s

/-- `read-byte()`: the ready-wait, then a data read (R182). -/
def readByteActions : List Action := [.awaitReady 0, .read selectorData, .respond .byte]
def execReadByte (s : State) : Answer := runWhenReady .readByte readByteActions s

end Sys2Proof.Machine
end

