-- ==== Sys2Proof/Machine/Transactions.lean ====
section
/-! DEFINITION. The nine instruction words and the two read selectors: each is one transaction (R110, R111) with the
word or the selector of its row. -/

namespace Sys2Proof.Machine

/-- W_CLEAR (R84). -/
def execWClear (s : State) : Answer := writeTransaction wordClear s

/-- W_HOME (R85). -/
def execWHome (s : State) : Answer := writeTransaction wordHome s

/-- W_ENTRY (R86). -/
def execWEntry (x y : Bool) (s : State) : Answer := writeTransaction (wordEntry x y) s

/-- W_DISPCTL (R87). -/
def execWDispctl (d c b : Bool) (s : State) : Answer := writeTransaction (wordDispctl d c b) s

/-- W_SHIFT (R88). -/
def execWShift (sh d : Bool) (s : State) : Answer := writeTransaction (wordShift sh d) s

/-- W_FUNCSET (R89). -/
def execWFuncset (l n f : Bool) (s : State) : Answer := writeTransaction (wordFuncset l n f) s

/-- W_SETCG (R90). -/
def execWSetcg (a : BitVec 6) (s : State) : Answer := writeTransaction (wordSetcg a) s

/-- W_SETDD (R91). -/
def execWSetdd (a : BitVec 7) (s : State) : Answer := writeTransaction (wordSetdd a) s

/-- W_DATA (R92). -/
def execWData (v : Byte) (s : State) : Answer := writeTransaction (wordData v) s

/-- STATUS_READ (R99). -/
def execStatusRead (s : State) : Answer := readTransaction false true s

/-- DATA_READ (R99). -/
def execDataRead (s : State) : Answer := readTransaction true true s

end Sys2Proof.Machine
end

