-- ==== Sys2Proof/Machine/Dispatch.lean ====
section
/-! DEFINITION. One arm for each constructor of Instr. -/

namespace Sys2Proof.Machine

def exec (i : Instr) (s : State) : Host.Outcome State Fault Refusal :=
  match i with
  -- W10
  | .wClear => Sys2Proof.Machine.execWClear s
  | .wHome => Sys2Proof.Machine.execWHome s
  | .wEntry x y => Sys2Proof.Machine.execWEntry x y s
  | .wDispctl d c b => Sys2Proof.Machine.execWDispctl d c b s
  | .wShift sh d => Sys2Proof.Machine.execWShift sh d s
  | .wFuncset l n f => Sys2Proof.Machine.execWFuncset l n f s
  | .wSetcg a => Sys2Proof.Machine.execWSetcg a s
  | .wSetdd a => Sys2Proof.Machine.execWSetdd a s
  | .wData v => Sys2Proof.Machine.execWData v s
  -- RSEL
  | .statusRead => Sys2Proof.Machine.execStatusRead s
  | .dataRead => Sys2Proof.Machine.execDataRead s
  -- CMD5
  | .clear => Sys2Proof.Machine.execClear s
  | .returnHome => Sys2Proof.Machine.execReturnHome s
  | .entryModeSet increment shift => Sys2Proof.Machine.execEntryModeSet increment shift s
  | .displayControl display cursor blink => Sys2Proof.Machine.execDisplayControl display cursor blink s
  | .shiftCursor right => Sys2Proof.Machine.execShiftCursor right s
  | .moveCursor line column => Sys2Proof.Machine.execMoveCursor line column s
  | .getCurrentLine => Sys2Proof.Machine.execGetCurrentLine s
  | .shiftDisplay right => Sys2Proof.Machine.execShiftDisplay right s
  | .shiftDisplayRight n => Sys2Proof.Machine.execShiftDisplayRight n s
  | .shiftDisplayLeft n => Sys2Proof.Machine.execShiftDisplayLeft n s
  | .functionSet bits lines font => Sys2Proof.Machine.execFunctionSet bits lines font s
  | .writeByte byte => Sys2Proof.Machine.execWriteByte byte s
  | .writeCharacter ch => Sys2Proof.Machine.execWriteCharacter ch s
  | .writeString len text => Sys2Proof.Machine.execWriteString len text s
  | .setCGRAMAddress addr => Sys2Proof.Machine.execSetCGRAMAddress addr s
  | .setDDRAMAddress addr => Sys2Proof.Machine.execSetDDRAMAddress addr s
  | .isBusy => Sys2Proof.Machine.execIsBusy s
  | .readAddressCounter => Sys2Proof.Machine.execReadAddressCounter s
  | .readByte => Sys2Proof.Machine.execReadByte s
  | .initializeDisplay => Sys2Proof.Machine.execInitialize s

end Sys2Proof.Machine
end

