-- ==== Sys2Proof/Machine/Fetch.lean ====
section
/-! DEFINITION. Where the next instruction comes from: the command port when the sequencer is idle (R32, R206), the word
or selector at the sequencer's position when an operation runs (R25, R235); and the placing of an instruction there. -/

namespace Sys2Proof.Machine

/-- What a step finds: an instruction to run in a state, or an answer that needs no instruction. -/
inductive Fetched where
  | run (i : Instr) (s : State)
  | answer (a : Answer)

/-- The host's command at an idle port: decoded and accepted; with none presented the block waits (R32, R230). -/
def fetchCommand (s : State) : Fetched :=
  match s.host with
  | [] => .answer (.next s)
  | k :: rest =>
    match decode (.command k) with
    | .ok i => .run i (s.setHost rest)
    | .error why => .answer (.refused (.rejected why))

/-- The sequencer's next transaction, decoded. -/
def fetchTransaction (x : Encoded) (op : Instr) (rest : List Action) (s : State) : Fetched :=
  match decode x with
  | .ok i => .run i (s.setSeq (.running op rest))
  | .error why => .answer (.refused (.rejected why))

/-- The sequencer's position while an operation runs. -/
def fetchPosition (op : Instr) (todo : List Action) (s : State) : Fetched :=
  match todo with
  | .write w :: rest => fetchTransaction (.word w) op rest s
  | .read sel :: rest => fetchTransaction (.selector sel) op rest s
  | _ => .answer (runOneAction op todo s)

/-- What the next step finds. The pulse of rsp_valid is over (R32); rst comes first (R230). -/
def fetch (s : State) : Fetched :=
  let t := s.clearResponse
  if t.rst then .answer (takeReset t)
  else
    match t.seq with
    | .idle => fetchCommand t
    | .running op todo => fetchPosition op todo t

/-! Placing an instruction (log 2, 3). -/

/-- The oracle's next four answers say the chip is ready (log 2); the reference chip answers for itself. -/
def Env.readyFirst : Env → Env
  | .oracle d => .oracle { d with script := List.replicate 4 0 ++ d.script }
  | .reference c => .reference c

/-- The phase in which the command is accepted: Ready, but for initialize, which any phase accepts (R194). -/
def acceptingPhase (k : Command) (p : Phase) : Phase := if k.op = 19#5 then p else .ready

/-- The command is the next the port accepts. -/
def placeCommand (k : Command) (s : State) : State :=
  { s with
    rst := false
    seq := .idle
    host := k :: s.host
    phase := acceptingPhase k s.phase
    env := s.env.readyFirst }

/-- The transaction is at the sequencer's position. -/
def placeTransaction (x : Encoded) (a : Action) (s : State) : State :=
  match decode x with
  | .ok i => { s with rst := false, seq := .running i [a, .respond .nothing] }
  | .error _ => { s with rst := false, seq := .running .clear [a, .respond .nothing] }

/-- Whatever is presented, placed where the next step fetches it. -/
def place (x : Encoded) (s : State) : State :=
  match x with
  | .command k => placeCommand k s
  | .word w => placeTransaction x (.write w) s
  | .selector sel => placeTransaction x (.read sel) s

end Sys2Proof.Machine
end

