-- ==== Sys2Proof/Machine/Ports.lean ====
section
/-! DEFINITION. The output ports of the block as functions of its state (R32). The pulses dly_start with dly_sel and
timing_enable are the events `Delay(k)` and `TimingEnable` of the trace; the pulses of str_pop are counted in
`strPops`. -/

namespace Sys2Proof.Machine

/-- cmd_ready: 1 exactly when SEQ = Idle (R27 `idle`, R32). -/
def State.cmdReady (s : State) : Bool := s.seq == .idle

/-- cmd_valid, an input: the host presents an operation. -/
def State.cmdValid (s : State) : Bool := !s.host.isEmpty

/-- rsp_valid. -/
def State.rspValid (s : State) : Bool := s.rsp.isSome

/-- rsp_data, valid with rsp_valid. -/
def State.rspData (s : State) : Byte := s.rsp.getD 0x00#8

/-- lcd_e: the latch E, at the level E_ACTIVE gives an asserted line (R9). -/
def State.lcdE (s : State) : Bool := s.e == s.params.eActive

/-- lcd_db_oe: 1 when DDIR = OUT. -/
def State.lcdDbOe (s : State) : Bool := s.ddir == .outward

end Sys2Proof.Machine
end

