-- ==== Sys2Proof/Machine/Program.lean ====
section
/-! DEFINITION. The whole pseudocode of every instruction in one place, as the positions SEQ runs through (R25): what
statements about the sequencer are in terms of. The meanings run the same lists. -/

namespace Sys2Proof.Machine

/-- The positions of an instruction. `pops` is the number of str_pop pulses before it, which names the free bytes of a
string the host presents too short (log 13). -/
def program (pops : Nat) : Instr → List Action
  | .wClear => [.write wordClear, .respond .nothing]
  | .wHome => [.write wordHome, .respond .nothing]
  | .wEntry x y => [.write (wordEntry x y), .respond .nothing]
  | .wDispctl d c b => [.write (wordDispctl d c b), .respond .nothing]
  | .wShift sh d => [.write (wordShift sh d), .respond .nothing]
  | .wFuncset l n f => [.write (wordFuncset l n f), .respond .nothing]
  | .wSetcg a => [.write (wordSetcg a), .respond .nothing]
  | .wSetdd a => [.write (wordSetdd a), .respond .nothing]
  | .wData v => [.write (wordData v), .respond .nothing]
  | .statusRead => [.read selectorStatus, .respond .nothing]
  | .dataRead => [.read selectorData, .respond .nothing]
  | .clear => clearActions
  | .returnHome => returnHomeActions
  | .entryModeSet increment shift => entryModeSetActions increment shift
  | .displayControl display cursor blink => displayControlActions display cursor blink
  | .shiftCursor right => shiftCursorActions right
  | .moveCursor line column => moveCursorActions line column
  | .getCurrentLine => getCurrentLineActions
  | .shiftDisplay right => shiftDisplayActions right
  | .shiftDisplayRight n => shiftDisplayRightActions n
  | .shiftDisplayLeft n => shiftDisplayLeftActions n
  | .functionSet bits lines font => functionSetActions bits lines font
  | .writeByte byte => writeByteActions byte
  | .writeCharacter ch => writeCharacterActions ch
  | .writeString len text => writeStringActions (stringBytes len text pops)
  | .setCGRAMAddress addr => setCGRAMAddressActions addr
  | .setDDRAMAddress addr => setDDRAMAddressActions addr
  | .isBusy => isBusyActions
  | .readAddressCounter => readAddressCounterActions
  | .readByte => readByteActions
  | .initializeDisplay => initializeActions

/-- A position without its poll count. -/
def Action.fresh : Action → Action
  | .awaitReady _ => .awaitReady 0
  | .delay k => .delay k
  | .enableTiming => .enableTiming
  | .enterPhase p => .enterPhase p
  | .takeByte => .takeByte
  | .write w => .write w
  | .read sel => .read sel
  | .respond r => .respond r

/-- An operation accepted, with none of its pseudocode run. -/
def State.load (s : State) (i : Instr) : State :=
  s.clearResponse.setSeq (.running i (program s.strPops i))

end Sys2Proof.Machine
end

