-- ==== Sys2Proof/Machine/Timing.lean ====
section
/-! DEFINITION. The minimum waits (R8), what is asked of the delay primitive for each (R114), its select code (R32), and
the time a trace asks for (R247). No rule reads any of it (R246). -/

namespace Sys2Proof.Machine

/-- The minimum of a wait in nanoseconds (R8). -/
def Wait.minimum (p : Params) : Wait → Nat
  | .setup => 40
  | .pulse => 80
  | .hold => 10
  | .dataValid => 160
  | .addressSettle => 4000
  | .startup => 10000000 + p.margin

/-- The wait asked for: the minimum rounded up to a multiple of DELAY_RES (R8, R114, D23). -/
def Wait.asked (p : Params) (k : Wait) : Nat :=
  (k.minimum p + (p.delayRes - 1)) / p.delayRes * p.delayRes

/-- dly_sel (R32). -/
def Wait.select : Wait → BitVec 3
  | .setup => 0#3
  | .pulse => 1#3
  | .hold => 2#3
  | .dataValid => 3#3
  | .addressSettle => 4#3
  | .startup => 5#3

/-- The nanoseconds an event asks the delay primitive to wait. -/
def Event.asked (p : Params) : Event → Nat
  | .delay k => k.asked p
  | .line _ _ | .dir _ | .sample _ | .timingEnable => 0

/-- The nanoseconds a trace asks the delay primitive to wait in all (R247). -/
def askedTime (p : Params) (trace : List Event) : Nat := (trace.map (Event.asked p)).sum

end Sys2Proof.Machine
end

