-- ==== Sys2Proof/Machine/Trace.lean ====
section
/-! DEFINITION. The transaction-level projection of the bus trace (R12), and what a trace says of the entry guard. -/

namespace Sys2Proof.Machine

/-- What the chip side of the lines has seen since the last strobe. -/
structure LinesSeen where
  rs : Bool
  rw : Bool
  db : Byte
  sample : Byte
deriving DecidableEq, Repr

/-- Before any event (R31). -/
def LinesSeen.start : LinesSeen := { rs := false, rw := false, db := 0x00#8, sample := 0x00#8 }

/-- The 10-bit word on the lines (R57, R80). -/
def LinesSeen.word (l : LinesSeen) : Word10 := boolBit l.rs <<< 9 ||| boolBit l.rw <<< 8 ||| l.db.setWidth 10

/-- The transaction a strobe's end completes. -/
def LinesSeen.strobe (l : LinesSeen) : BusTransaction :=
  if l.rw then .read l.rs l.rw l.sample else .write l.word

/-- The lines after an event. -/
def LinesSeen.after (l : LinesSeen) : Event → LinesSeen
  | .line .rs v => { l with rs := v }
  | .line .rw v => { l with rw := v }
  | .line (.data k) v => { l with db := setBit l.db k v }
  | .line .enable _ => l
  | .sample v => { l with sample := v }
  | .dir _ | .delay _ | .timingEnable => l

/-- What an event contributes to the transaction-level trace: the end of a strobe its transaction; T_ADD, T_STARTUP and
TimingEnable themselves; the rest nothing (R12). -/
def LinesSeen.emits (eActive : Bool) (l : LinesSeen) : Event → List BusTransaction
  | .line .enable v => if v = eActive then [] else [l.strobe]
  | .delay .addressSettle => [.delay .addressSettle]
  | .delay .startup => [.delay .startup]
  | .timingEnable => [.timingEnable]
  | .delay .setup | .delay .pulse | .delay .hold | .delay .dataValid => []
  | .line .rs _ | .line .rw _ | .line (.data _) _ | .dir _ | .sample _ => []

/-- The projection of R12, from what has been seen so far. -/
def transactionsFrom (eActive : Bool) : LinesSeen → List Event → List BusTransaction
  | _, [] => []
  | l, ev :: rest => l.emits eActive ev ++ transactionsFrom eActive (l.after ev) rest

/-- The transaction-level trace of a state (R12). -/
def State.transactions (s : State) : List BusTransaction :=
  transactionsFrom s.params.eActive LinesSeen.start s.trace

/-- Reading a transaction-level trace for the entry guard (R34, R72 (a), R134): whether every instruction so far (a write
transaction, or a data read) came directly after a status read that showed the chip ready, and whether one would now. -/
def guardStep (p : Bool × Bool) : BusTransaction → Bool × Bool
  | .write _ => (p.1 && p.2, false)
  | .read true _ _ => (p.1 && p.2, false)
  | .read false _ v => (p.1, !busyFlag v)
  | .delay _ => p
  | .timingEnable => p

/-- The guard's state after a transaction-level trace. -/
def guardOf (ts : List BusTransaction) : Bool × Bool := ts.foldl guardStep (true, false)

/-- The events of `WriteTransaction(w)`, listed as R110 lists them. -/
def writeEvents (p : Params) (w : Word10) : List Event :=
  [.line .rs w[9], .line .rw w[8], .line (.data 7) w[7], .line (.data 6) w[6], .line (.data 5) w[5],
   .line (.data 4) w[4], .line (.data 3) w[3], .line (.data 2) w[2], .line (.data 1) w[1], .line (.data 0) w[0],
   .delay .setup, .line .enable p.eActive, .delay .pulse, .line .enable (!p.eActive), .delay .hold]

/-- The events of `ReadTransaction(rs, 1)` that samples `v`, listed as R111 lists them. -/
def readEvents (p : Params) (rs : Bool) (v : Byte) : List Event :=
  [.line .rs rs, .line .rw true, .dir .inward, .delay .setup, .line .enable p.eActive, .delay .dataValid, .sample v,
   .line .enable (!p.eActive), .delay .hold, .dir .outward]

end Sys2Proof.Machine
end

