-- ==== Sys2Proof/Safety.lean ====
section
/-! DEFINITION. The terms claims are made in: when an operation runs normally, what a transaction leaves behind (R119),
sequences of answers of the environment, and the invariants. -/

namespace Sys2Proof.Machine

/-! When an operation runs, and what it leaves. -/

/-- When an operation other than initialize is accepted and runs: SEQ is Idle, PHASE is Ready, the bus is at rest
(R33, R194). -/
structure State.Accepts (s : State) : Prop where
  idle : s.seq = .idle
  ready : s.phase = .ready
  rest : s.atRest = true

/-- After `ReadTransaction(rs, 1)` that sampled `v` (R119): RS = rs, RW = 1, E = 0, DDIR = OUT, DB_OUT unchanged. -/
def State.afterRead (s : State) (rs : Bool) (v : Byte) (env : Env) : State :=
  { s with rs := rs, rw := true, e := false, ddir := .outward, env := env, trace := s.trace ++ readEvents s.params rs v }

/-- After `WriteTransaction(w)` (R119): RS = w[9], RW = 0, DB_OUT = w[7:0], E = 0, DDIR = OUT. -/
def State.afterWrite (s : State) (w : Word10) (env : Env) : State :=
  { s with
    rs := w[9]
    rw := false
    dbOut := w.extractLsb' 0 8
    e := false
    ddir := .outward
    env := env
    trace := s.trace ++ writeEvents s.params w }

/-- After the entry guard that saw the chip ready at its first poll, and the write transaction (R140). -/
def State.afterSend (s : State) (v : Byte) (w : Word10) (env₁ env₂ : Env) : State :=
  (s.afterRead false v env₁).afterWrite w env₂

/-! Answers of the environment. -/

/-- The environment answers a status read with `v`, busy flag clear, and goes on as `env'`. -/
def Env.AnswersReady (env : Env) (v : Byte) (env' : Env) : Prop := env.read false = .ok (v, env') ∧ busyFlag v = false

/-- The environment answers a status read with `v`, busy flag set, and goes on as `env'`. -/
def Env.AnswersBusy (env : Env) (v : Byte) (env' : Env) : Prop := env.read false = .ok (v, env') ∧ busyFlag v = true

/-- The environment shows the chip busy at exactly these successive status reads, and goes on as the last. -/
def Env.BusyFor : List Byte → Env → Env → Prop
  | [], env, env' => env = env'
  | v :: vs, env, env' => ∃ mid, env.AnswersBusy v mid ∧ Env.BusyFor vs mid env'

/-- The environment lets the words through one after the other, each after one poll that shows the chip ready: the list
pairs each poll's byte with its word. -/
def Env.Sends : List (Byte × Word10) → Env → Env → Prop
  | [], env, env' => env = env'
  | (v, w) :: rest, env, env' =>
    ∃ polled taken, env.AnswersReady v polled ∧ polled.write w = .ok taken ∧ Env.Sends rest taken env'

/-- The same with busy polls before each ready one: each word with the bytes that showed busy and the byte that showed
ready. -/
def Env.SendsAfter : List (List Byte × Byte × Word10) → Env → Env → Prop
  | [], env, env' => env = env'
  | (busy, v, w) :: rest, env, env' =>
    ∃ mid polled taken, Env.BusyFor busy env mid ∧ mid.AnswersReady v polled ∧ polled.write w = .ok taken ∧
      Env.SendsAfter rest taken env'

/-- ChipEventuallyReady for the next wait (R71): a finite number of status reads later the busy flag reads 0. -/
def Env.EventuallyReady (env : Env) : Prop := ∃ vs v mid env', Env.BusyFor vs env mid ∧ mid.AnswersReady v env'

/-- After words are sent one after the other, each after one poll that sampled the byte paired with it, with the
environment the last leaves; with no word nothing changes (R140, R165, R181). -/
def State.afterSends (s : State) (sends : List (Byte × Word10)) (env : Env) : State :=
  sends.foldl (fun t x => t.afterSend x.1 x.2 env env) s

/-- After a run of polls that sampled these bytes, with the environment the last leaves; with no poll nothing changes
(R130). -/
def State.afterPolls (s : State) (vs : List Byte) (env : Env) : State :=
  vs.foldl (fun t v => t.afterRead false v env) s

/-- After words are sent one after the other, each after its own polls, with the environment the last leaves; with no
word nothing changes (R140, R165, R181). -/
def State.afterGroups (s : State) (groups : List (List Byte × Byte × Word10)) (env : Env) : State :=
  groups.foldl (fun t g => (t.afterPolls (g.1 ++ [g.2.1]) env).afterWrite g.2.2 env) s

/-- The byte number `j` of a string: the one the host presents, or the free byte at its pulse of str_pop where the host
presents fewer (R181, log 13). -/
def stringByte (text : List Byte) (pops j : Nat) : Byte := (text[j]?).getD (Config.freeStringByte (pops + j))

/-- The bit a flag argument encodes as: "any nonzero input argument encodes as 1; zero encodes as 0" (R93). -/
def flagBit (v : Byte) : Nat := if v = 0#8 then 0 else 1

/-- `k` steps, stopping at the first refusal. -/
def runSteps : Nat → State → Answer
  | 0, s => .next s
  | k + 1, s =>
    match step s with
    | .next t => runSteps k t
    | .fault r => .fault r
    | .refused r => .refused r

/-- An answer and then `k` more steps. -/
def thenSteps (k : Nat) : Answer → Answer
  | .next s => runSteps k s
  | .fault r => .fault r
  | .refused r => .refused r

/-- `require PHASE = Ready`: accepted in no other phase (R194). -/
def RefusedOutsideReady (i : Instr) : Prop :=
  ∀ s : State, s.seq = .idle → s.phase ≠ .ready → exec i s = .refused (.notReady s.phase)

/-- The common shape of R140 with this word: refused outside Ready; at once, when the chip shows ready at the first poll;
and, after however many busy polls, in a number of steps: the polls, the write transaction, a return with no result, and
nothing else of the state changed. -/
def SendsOneWord (i : Instr) (w : Word10) : Prop :=
  RefusedOutsideReady i ∧
  (∀ s v env₁ env₂, s.Accepts → s.env.AnswersReady v env₁ → env₁.write w = .ok env₂ →
    exec i s = .next ((s.clearResponse.afterSend v w env₁ env₂).complete .nothing)) ∧
  ∀ s busy mid v env₁ env₂, s.Accepts → s.rst = false → s.params.maxPolls = none → Env.BusyFor busy s.env mid →
    mid.AnswersReady v env₁ → env₁.write w = .ok env₂ →
    ∃ k, thenSteps k (exec i s) = .next
      (((s.clearResponse.afterPolls (busy ++ [v]) env₁).afterWrite w env₂).complete .nothing)

/-- The state a position leaves, whatever way the operation goes on from it. -/
def Progress.leaves (p : Progress) (t : State) : Prop :=
  p = .onward t ∨ (∃ a, p = .waiting a t) ∨ p = .ended t

/-! Invariants. -/

/-- The chip's memories are canonical and hold no address but its cells (R51, R53). -/
def Chip.wf (c : Chip) : Prop :=
  Memory.wf c.ddram ∧ Memory.wf c.cgram ∧
    (∀ p ∈ c.ddram, p.1 ≤ 0x27 ∨ (0x40 ≤ p.1 ∧ p.1 ≤ 0x67)) ∧ ∀ p ∈ c.cgram, p.1 < 64

/-- The same of the environment. -/
def Env.wf : Env → Prop
  | .oracle _ => True
  | .reference c => c.wf

/-- SEQ is Idle with no sampled byte left (R20, R23), or runs an operation from a position of that operation's own
pseudocode (R25), in the phase that belongs to it (R191, R194). -/
def State.OnProgram (s : State) : Prop :=
  match s.seq with
  | .idle => s.sampled = 0x00#8
  | .running op todo =>
    op.isOperation = true ∧ (∃ pops, todo.map Action.fresh <:+ program pops op) ∧
      (op ≠ .initializeDisplay → s.phase = .ready)

/-- Whether a position enters a phase. -/
def Action.isPhaseEntry : Action → Bool
  | .enterPhase _ => true
  | .awaitReady _ | .delay _ | .enableTiming | .takeByte | .write _ | .read _ | .respond _ => false

/-- The phase while `initialize` stands before these positions, by how many phases are still to be entered (R24, R191):
none before it has entered PowerOn. -/
def expectedPhase (todo : List Action) : Option Phase :=
  match (todo.filter Action.isPhaseEntry).length with
  | 0 => some .ready
  | 1 => some .cleared
  | 2 => some .entryConfigured
  | 3 => some .displayConfigured
  | 4 => some .functionConfigured
  | 5 => some .powerOn
  | _ => none

/-- While `initialize` runs, PHASE is the one its position says (R24, R191). -/
def State.PhaseFollows (s : State) : Prop :=
  ∀ todo p, s.seq = .running .initializeDisplay todo → expectedPhase todo = some p → s.phase = p

/-- Whether a position is an instruction to the chip: a write transaction or a data read (R72 (a)). -/
def Action.isInstruction : Action → Bool
  | .write _ => true
  | .read sel => sel == selectorData
  | .awaitReady _ | .delay _ | .enableTiming | .enterPhase _ | .takeByte | .respond _ => false

/-- Every instruction so far came directly after a status read that showed the chip ready (R34, R65, R134), and if the
sequencer stands before an instruction, such a read was the last transaction. -/
def State.Guarded (s : State) : Prop :=
  (guardOf s.transactions).1 = true ∧
    ∀ op a rest, s.seq = .running op (a :: rest) → a.isInstruction = true → (guardOf s.transactions).2 = true

/-- hw_fault is only ever set when MAX_POLLS is finite (R32, R207). -/
def State.FaultOnlyBounded (s : State) : Prop := s.hwFault = true → s.params.maxPolls ≠ none

/-- The launch premises of R233 that are about the state: P1 and P2. -/
def State.Launch (s : State) : Prop :=
  s.e = false ∧ s.ddir = .outward ∧ s.seq = .idle ∧ s.phase = .powerOn ∧ s.hwFault = false

/-- The parameters no rule depends on (R246): DELAY_RES, MARGIN and F_CLK, replaced. -/
def State.withTiming (s : State) (delayRes margin : Nat) (fClk : Option Nat) : State :=
  { s with params := { s.params with delayRes := delayRes, margin := margin, fClk := fClk } }

/-- An answer with its state mapped. -/
def mapAnswer (f : State → State) : Answer → Answer
  | .next s => .next (f s)
  | .fault r => .fault r
  | .refused r => .refused r

end Sys2Proof.Machine
end

