-- ==== Sys2Proof/Certificates/Slice0/Obligations.lean ====
section
/-! DEFINITION. The statements for the provers. Each docstring names the rule of spec/ it formalises; where a statement
rests on a choice of the model, its docstring names the log entry. -/

open Sys2Proof Sys2Proof.Machine

/-! Reset and the step. -/

/-- The table of R31 in 10_state.md section 6, row by row, for every row that gives a value (the line levels are the
spec's decision D7). -/
def Obligations.ResetValues : Prop :=
  State.reset.phase = .powerOn ∧ State.reset.seq = .idle ∧ State.reset.rs = false ∧ State.reset.rw = false ∧
    State.reset.dbOut = 0x00#8 ∧ State.reset.e = false ∧ State.reset.ddir = .outward ∧
    State.reset.timingEnabled = false

/-- R230: rst with no operation in flight puts the block in the reset state, does nothing to the chip, and leaves
cmd_ready = 1 (the spec's decision D7; hw_fault: R207, D17). -/
def Obligations.ResetPinPutsTheBlockInItsResetState : Prop :=
  ∀ s : State, s.rst = true → s.seq = .idle →
    ∃ t, step s = .next t ∧ t.phase = .powerOn ∧ t.seq = .idle ∧ t.rs = false ∧ t.rw = false ∧ t.e = false ∧
      t.dbOut = 0x00#8 ∧ t.ddir = .outward ∧ t.hwFault = false ∧ t.env = s.env ∧ t.cmdReady = true

/-- R231: reset is admitted when SEQ is Idle and refused otherwise (the spec's decision D7). -/
def Obligations.ResetAdmittedOnlyWhenIdle : Prop :=
  ∀ s : State, s.rst = true →
    (s.seq = .idle → ∃ t, step s = .next t) ∧
      ∀ op todo, s.seq = .running op todo → step s = .refused .resetWhileRunning

/-- 70_reset_and_hazards.md section 1: with no reset and no operation presented the idle block waits; only the pulse of
rsp_valid ends (log 18). -/
def Obligations.IdleBlockWaitsForAnOperation : Prop :=
  ∀ s : State, s.rst = false → s.seq = .idle → s.host = [] → step s = .next { s with rsp := none }

/-- The step at an idle block: the operation presented is taken from the port, decoded, and run (R32; log 1, 2). -/
def Obligations.StepRunsThePresentedOperation : Prop :=
  ∀ (s : State) (k : Command) (rest : List Command) (i : Instr),
    s.rst = false → s.seq = .idle → s.host = k :: rest → decode (.command k) = .ok i →
      step s = exec i { s with rsp := none, host := rest }

/-- The step at a transaction of a running operation: its word or selector is decoded and run, and the sequencer stands
at the position after it (R25; log 1, 3). -/
def Obligations.StepRunsTheSequencersTransaction : Prop :=
  ∀ (s : State) (op i : Instr) (rest : List Action), s.rst = false →
    (∀ w, s.seq = .running op (.write w :: rest) → decode (.word w) = .ok i →
      step s = exec i { s with rsp := none, seq := .running op rest }) ∧
    (∀ sel, s.seq = .running op (.read sel :: rest) → decode (.selector sel) = .ok i →
      step s = exec i { s with rsp := none, seq := .running op rest })

/-! Encoding. -/

/-- R100: the twenty codes with the ports that carry their arguments, every other port ignored; codes 20 to 31 are
refused when they are presented (the numbering is the spec's decision D4). -/
def Obligations.OperationCodes : Prop :=
  (∀ k : Command,
    (k.op = 0#5 → decode (.command k) = .ok .clear) ∧
    (k.op = 1#5 → decode (.command k) = .ok .returnHome) ∧
    (k.op = 2#5 → decode (.command k) = .ok (.entryModeSet k.a k.b)) ∧
    (k.op = 3#5 → decode (.command k) = .ok (.displayControl k.a k.b k.c)) ∧
    (k.op = 4#5 → decode (.command k) = .ok (.shiftCursor k.a)) ∧
    (k.op = 5#5 → decode (.command k) = .ok (.moveCursor k.a k.b)) ∧
    (k.op = 6#5 → decode (.command k) = .ok .getCurrentLine) ∧
    (k.op = 7#5 → decode (.command k) = .ok (.shiftDisplay k.a)) ∧
    (k.op = 8#5 → decode (.command k) = .ok (.shiftDisplayRight k.n)) ∧
    (k.op = 9#5 → decode (.command k) = .ok (.shiftDisplayLeft k.n)) ∧
    (k.op = 10#5 → decode (.command k) = .ok (.functionSet k.a k.b k.c)) ∧
    (k.op = 11#5 → decode (.command k) = .ok (.writeByte k.a)) ∧
    (k.op = 12#5 → decode (.command k) = .ok (.writeCharacter k.a)) ∧
    (k.op = 13#5 → decode (.command k) = .ok (.writeString k.n (k.stream.take k.n))) ∧
    (k.op = 14#5 → decode (.command k) = .ok (.setCGRAMAddress k.a)) ∧
    (k.op = 15#5 → decode (.command k) = .ok (.setDDRAMAddress k.a)) ∧
    (k.op = 16#5 → decode (.command k) = .ok .isBusy) ∧
    (k.op = 17#5 → decode (.command k) = .ok .readAddressCounter) ∧
    (k.op = 18#5 → decode (.command k) = .ok .readByte) ∧
    (k.op = 19#5 → decode (.command k) = .ok .initializeDisplay)) ∧
  ∀ (s : State) (k : Command) (rest : List Command), s.rst = false → s.seq = .idle → s.host = k :: rest →
    20 ≤ k.op.toNat → step s = .refused (.rejected (.reservedOperation k.op))

/-- Decoding an encoded well-formed instruction gives it back, every operand at every value (30_encoding.md sections 1,
3, 4 and 5). -/
def Obligations.DecodeOfEncodeIsTheInstruction : Prop :=
  ∀ i : Instr, i.wellFormed = true → decode (encode i) = .ok i

/-- A word or selector the decoder accepts is exactly the encoding of what it decodes to: no bit is ignored
(30_encoding.md sections 3 and 4, the spec's decision D24; the reading of the R96 listing is log 24). -/
def Obligations.AcceptedEncodingsAreExact : Prop :=
  (∀ (w : Word10) (i : Instr), decode (.word w) = .ok i → encode i = .word w) ∧
    ∀ (sel : BitVec 2) (i : Instr), decode (.selector sel) = .ok i → encode i = .selector sel

/-- Words and selectors written out in 95_test_vectors.md V-E8 and 30_encoding.md section 4. -/
def Obligations.SampleWordsDecode : Prop :=
  decode (.word 0x000#10) = .error (.notAnInstructionWord 0x000#10) ∧ decode (.word 0x001#10) = .ok .wClear ∧
    decode (.word 0x002#10) = .ok .wHome ∧
    decode (.word 0x003#10) = .error (.notAnInstructionWord 0x003#10) ∧
    decode (.word 0x006#10) = .ok (.wEntry true false) ∧ decode (.word 0x00E#10) = .ok (.wDispctl true true false) ∧
    decode (.word 0x014#10) = .ok (.wShift false true) ∧
    decode (.word 0x015#10) = .error (.notAnInstructionWord 0x015#10) ∧
    decode (.word 0x038#10) = .ok (.wFuncset true true false) ∧
    decode (.word 0x039#10) = .error (.notAnInstructionWord 0x039#10) ∧
    decode (.word 0x048#10) = .ok (.wSetcg 0x08#6) ∧ decode (.word 0x0C4#10) = .ok (.wSetdd 0x44#7) ∧
    decode (.word 0x241#10) = .ok (.wData 0x41#8) ∧
    decode (.word 0x341#10) = .error (.notAnInstructionWord 0x341#10) ∧
    decode (.selector 0b01#2) = .ok .statusRead ∧ decode (.selector 0b11#2) = .ok .dataRead ∧
    decode (.selector 0b10#2) = .error (.notAReadSelector 0b10#2)

/-! The two transactions. -/

/-- R110: from a bus at rest a write transaction of a word with RW = 0 makes these fifteen events in this order, leaves
the word on the latches and E deasserted, and changes nothing else of the block. -/
def Obligations.WriteTransactionDrivesTheWord : Prop :=
  ∀ (s : State) (w : Word10) (env' : Env), w[8] = false → s.e = false → s.ddir = .outward →
    s.env.write w = .ok env' →
    writeTransaction w s = .next
      { s with
        rs := w[9]
        rw := false
        dbOut := w.extractLsb' 0 8
        e := false
        env := env'
        trace := s.trace ++
          [.line .rs w[9], .line .rw w[8], .line (.data 7) w[7], .line (.data 6) w[6], .line (.data 5) w[5],
           .line (.data 4) w[4], .line (.data 3) w[3], .line (.data 2) w[2], .line (.data 1) w[1],
           .line (.data 0) w[0], .delay .setup, .line .enable s.params.eActive, .delay .pulse,
           .line .enable (!s.params.eActive), .delay .hold] }

/-- R111: from a bus at rest a read transaction with RW = 1 makes these ten events in this order, returns the one byte
the environment gives (into `sampled`, log 6), leaves DB_OUT alone and the data lines in output mode. -/
def Obligations.ReadTransactionSamplesOnce : Prop :=
  ∀ (s : State) (rs : Bool) (v : Byte) (env' : Env), s.e = false → s.ddir = .outward →
    s.env.read rs = .ok (v, env') →
    readTransaction rs true s = .next
      { s with
        rs := rs
        rw := true
        e := false
        ddir := .outward
        sampled := v
        env := env'
        trace := s.trace ++
          [.line .rs rs, .line .rw true, .dir .inward, .delay .setup, .line .enable s.params.eActive,
           .delay .dataValid, .sample v, .line .enable (!s.params.eActive), .delay .hold, .dir .outward] }

/-- 40_bus_transaction.md (admitted arguments) and 60_exceptions.md section 5, items 3 and 4: what the transactions
refuse (the spec's decision D19). -/
def Obligations.TransactionsRefuseOtherUses : Prop :=
  ∀ (s : State) (w : Word10) (rs : Bool),
    (w[8] = true → writeTransaction w s = .refused .writeWithRwSet) ∧
    readTransaction rs false s = .refused .readWithRwClear ∧
    (s.e = true ∨ s.ddir = .inward →
      (w[8] = false → writeTransaction w s = .refused .busNotAtRest) ∧
        readTransaction rs true s = .refused .busNotAtRest)

/-- R84 to R92: each of the nine instruction words, with its fields at every value, is put on the bus as the number the
rule gives, by one write transaction, and nothing else of the state changes. -/
def Obligations.InstructionWordsGoOnTheBus : Prop :=
  ∀ (s : State) (env' : Env), s.atRest = true →
    (s.env.write 0x001#10 = .ok env' → exec .wClear s = .next (s.afterWrite 0x001#10 env')) ∧
    (s.env.write 0x002#10 = .ok env' → exec .wHome s = .next (s.afterWrite 0x002#10 env')) ∧
    (∀ x y : Bool, s.env.write (BitVec.ofNat 10 (0x004 + 2 * x.toNat + y.toNat)) = .ok env' →
      exec (.wEntry x y) s = .next (s.afterWrite (BitVec.ofNat 10 (0x004 + 2 * x.toNat + y.toNat)) env')) ∧
    (∀ d c b : Bool, s.env.write (BitVec.ofNat 10 (0x008 + 4 * d.toNat + 2 * c.toNat + b.toNat)) = .ok env' →
      exec (.wDispctl d c b) s =
        .next (s.afterWrite (BitVec.ofNat 10 (0x008 + 4 * d.toNat + 2 * c.toNat + b.toNat)) env')) ∧
    (∀ sh d : Bool, s.env.write (BitVec.ofNat 10 (0x010 + 8 * sh.toNat + 4 * d.toNat)) = .ok env' →
      exec (.wShift sh d) s = .next (s.afterWrite (BitVec.ofNat 10 (0x010 + 8 * sh.toNat + 4 * d.toNat)) env')) ∧
    (∀ l n f : Bool, s.env.write (BitVec.ofNat 10 (0x020 + 16 * l.toNat + 8 * n.toNat + 4 * f.toNat)) = .ok env' →
      exec (.wFuncset l n f) s =
        .next (s.afterWrite (BitVec.ofNat 10 (0x020 + 16 * l.toNat + 8 * n.toNat + 4 * f.toNat)) env')) ∧
    (∀ a : BitVec 6, s.env.write (BitVec.ofNat 10 (0x040 + a.toNat)) = .ok env' →
      exec (.wSetcg a) s = .next (s.afterWrite (BitVec.ofNat 10 (0x040 + a.toNat)) env')) ∧
    (∀ a : BitVec 7, s.env.write (BitVec.ofNat 10 (0x080 + a.toNat)) = .ok env' →
      exec (.wSetdd a) s = .next (s.afterWrite (BitVec.ofNat 10 (0x080 + a.toNat)) env')) ∧
    (∀ v : Byte, s.env.write (BitVec.ofNat 10 (0x200 + v.toNat)) = .ok env' →
      exec (.wData v) s = .next (s.afterWrite (BitVec.ofNat 10 (0x200 + v.toNat)) env'))

/-- 30_encoding.md section 4: the status read drives RS = 0, the data read RS = 1, both with RW = 1, and each returns the
byte sampled (into `sampled`, log 6); the data read's selector is the spec's decision D12. -/
def Obligations.ReadSelectorsReadTheBus : Prop :=
  ∀ (s : State) (v : Byte) (env' : Env), s.atRest = true →
    (s.env.read false = .ok (v, env') →
      exec .statusRead s = .next { s.afterRead false v env' with sampled := v }) ∧
    (s.env.read true = .ok (v, env') →
      exec .dataRead s = .next { s.afterRead true v env' with sampled := v })

/-! The write operations. -/

/-- R141, R142: the common shape of R140 with the two constant words; refused outside Ready (the spec's decision D8). -/
def Obligations.ClearAndReturnHomeSendTheirWords : Prop :=
  SendsOneWord .clear 0x001#10 ∧ SendsOneWord .returnHome 0x002#10

/-- R143, R144, R147, R93: the flag arguments are read as booleans and packed into the word. That shift-cursor sends s = 0
and shift-display s = 1 is the spec's decision D14; refused outside Ready: D8. -/
def Obligations.FlagOperationsSendTheirWords : Prop :=
  ∀ a b c : Byte,
    SendsOneWord (.entryModeSet a b) (BitVec.ofNat 10 (0x004 + 2 * flagBit a + flagBit b)) ∧
    SendsOneWord (.displayControl a b c) (BitVec.ofNat 10 (0x008 + 4 * flagBit a + 2 * flagBit b + flagBit c)) ∧
    SendsOneWord (.shiftCursor a) (BitVec.ofNat 10 (0x010 + 4 * flagBit a)) ∧
    SendsOneWord (.shiftDisplay a) (BitVec.ofNat 10 (0x018 + 4 * flagBit a)) ∧
    SendsOneWord (.functionSet a b c) (BitVec.ofNat 10 (0x020 + 16 * flagBit a + 8 * flagBit b + 4 * flagBit c))

/-- R148, R149, R94: the top bits of the argument are discarded, silently; refused outside Ready (the spec's decision
D8). -/
def Obligations.AddressOperationsSendTheirWords : Prop :=
  ∀ addr : Byte,
    SendsOneWord (.setCGRAMAddress addr) (BitVec.ofNat 10 (0x040 + addr.toNat % 64)) ∧
    SendsOneWord (.setDDRAMAddress addr) (BitVec.ofNat 10 (0x080 + addr.toNat % 128))

/-- R150: the byte is sent as it is. That write-character sends its code unchanged (R180) is the spec's decision
D16; refused outside Ready: D8. -/
def Obligations.ByteOperationsSendTheirWords : Prop :=
  ∀ byte : Byte,
    SendsOneWord (.writeByte byte) (BitVec.ofNat 10 (0x200 + byte.toNat)) ∧
    SendsOneWord (.writeCharacter byte) (BitVec.ofNat 10 (0x200 + byte.toNat))

/-- R162 with R160: move-cursor sends one Set DDRAM address word with the clamped position's
address; refused outside Ready (the spec's decision D8). -/
def Obligations.MoveCursorSendsTheCellAddress : Prop :=
  ∀ line column : Byte,
    SendsOneWord (.moveCursor line column)
      (BitVec.ofNat 10
        (0x080 + ((if line.toNat ≤ 1 then 0x00 else 0x40) + (min (max column.toNat 1) 40 - 1))))

/-! The read operations. -/

/-- R135: exactly one status read, with no wait before it, answers the busy flag; refused outside Ready (the spec's
decisions D11, D8). -/
def Obligations.IsBusyAnswersTheBusyFlag : Prop :=
  RefusedOutsideReady .isBusy ∧
  ∀ (s : State) (v : Byte) (env₁ : Env), s.Accepts → s.env.read false = .ok (v, env₁) →
    exec .isBusy s = .next ((s.clearResponse.afterRead false v env₁).complete (.busy v[7]))

/-- R163: the polls of the ready-wait, the settle wait, and one more status read, whose low seven bits are the result
whatever its bit 7; at once when the first poll shows ready; refused outside Ready (the spec's decisions D13, D8). -/
def Obligations.ReadAddressCounterAnswersTheCounter : Prop :=
  RefusedOutsideReady .readAddressCounter ∧
  (∀ (s : State) (v₁ v₂ : Byte) (env₁ env₂ : Env), s.Accepts → s.env.AnswersReady v₁ env₁ →
    env₁.read false = .ok (v₂, env₂) →
    exec .readAddressCounter s = .next
      ((((s.clearResponse.afterRead false v₁ env₁).delay .addressSettle).afterRead false v₂ env₂).complete
        (.address (v₂.extractLsb' 0 7)))) ∧
  ∀ (s : State) (busy : List Byte) (mid : Env) (v₁ v₂ : Byte) (env₁ env₂ : Env), s.Accepts → s.rst = false →
    s.params.maxPolls = none → Env.BusyFor busy s.env mid → mid.AnswersReady v₁ env₁ →
    env₁.read false = .ok (v₂, env₂) →
    ∃ k, thenSteps k (exec .readAddressCounter s) = .next
      ((((s.clearResponse.afterPolls (busy ++ [v₁]) env₁).delay .addressSettle).afterRead false v₂ env₂).complete
        (.address (v₂.extractLsb' 0 7)))

/-- R164: the line of the address counter, read as read-address-counter reads it: the low seven bits of the status byte
(the spec's decision D13), at once or after any number of busy polls; refused outside Ready (D8). -/
def Obligations.GetCurrentLineClassifiesTheCounter : Prop :=
  RefusedOutsideReady .getCurrentLine ∧
  (∀ (s : State) (v₁ v₂ : Byte) (env₁ env₂ : Env), s.Accepts → s.env.AnswersReady v₁ env₁ →
    env₁.read false = .ok (v₂, env₂) →
    exec .getCurrentLine s = .next
      ((((s.clearResponse.afterRead false v₁ env₁).delay .addressSettle).afterRead false v₂ env₂).complete
        (.line (classifyAddress ((v₂.extractLsb' 0 7).setWidth 8))))) ∧
  ∀ (s : State) (busy : List Byte) (mid : Env) (v₁ v₂ : Byte) (env₁ env₂ : Env), s.Accepts → s.rst = false →
    s.params.maxPolls = none → Env.BusyFor busy s.env mid → mid.AnswersReady v₁ env₁ →
    env₁.read false = .ok (v₂, env₂) →
    ∃ k, thenSteps k (exec .getCurrentLine s) = .next
      ((((s.clearResponse.afterPolls (busy ++ [v₁]) env₁).delay .addressSettle).afterRead false v₂ env₂).complete
        (.line (classifyAddress ((v₂.extractLsb' 0 7).setWidth 8))))

/-- R182: the ready-wait, then one data read, whose eight bits are the result; refused outside Ready (the spec's
decisions D10, D12, D8). -/
def Obligations.ReadByteAnswersTheDataRead : Prop :=
  RefusedOutsideReady .readByte ∧
  (∀ (s : State) (v₁ v₂ : Byte) (env₁ env₂ : Env), s.Accepts → s.env.AnswersReady v₁ env₁ →
    env₁.read true = .ok (v₂, env₂) →
    exec .readByte s = .next
      (((s.clearResponse.afterRead false v₁ env₁).afterRead true v₂ env₂).complete (.byte v₂))) ∧
  ∀ (s : State) (busy : List Byte) (mid : Env) (v₁ v₂ : Byte) (env₁ env₂ : Env), s.Accepts → s.rst = false →
    s.params.maxPolls = none → Env.BusyFor busy s.env mid → mid.AnswersReady v₁ env₁ →
    env₁.read true = .ok (v₂, env₂) →
    ∃ k, thenSteps k (exec .readByte s) = .next
      (((s.clearResponse.afterPolls (busy ++ [v₁]) env₁).afterRead true v₂ env₂).complete (.byte v₂))

/-- 30_encoding.md section 5, 43_addressing.md: the results on rsp_data; LINE_UNKNOWN is a parameter (R9). -/
def Obligations.ResultsOnTheResponsePort : Prop :=
  ∀ p : Params,
    Result.data p .nothing = 0#8 ∧ Result.data p (.busy true) = 1#8 ∧ Result.data p (.busy false) = 0#8 ∧
    (∀ a : BitVec 7, (Result.data p (.address a)).toNat = a.toNat) ∧ (∀ v, Result.data p (.byte v) = v) ∧
    Result.data p (.line .line1) = 1#8 ∧ Result.data p (.line .line2) = 2#8 ∧
    Result.data p (.line .unknown) = p.lineUnknown

/-! The repeated operations and initialize. -/

/-- R165, R166: exactly n shift words, each after its own ready-wait; none for n = 0; at once when every first poll shows
ready, else in a number of steps; refused outside Ready (the spec's decision D8; s = 1: D14). -/
def Obligations.RepeatedShiftsSendNWords : Prop :=
  (∀ n, RefusedOutsideReady (.shiftDisplayRight n) ∧ RefusedOutsideReady (.shiftDisplayLeft n)) ∧
  (∀ (s : State) (polls : List Byte) (env' : Env), s.Accepts →
    (Env.Sends (polls.map fun v => (v, 0x01C#10)) s.env env' →
      exec (.shiftDisplayRight polls.length) s = .next
        ((s.clearResponse.afterSends (polls.map fun v => (v, 0x01C#10)) env').complete .nothing)) ∧
    (Env.Sends (polls.map fun v => (v, 0x018#10)) s.env env' →
      exec (.shiftDisplayLeft polls.length) s = .next
        ((s.clearResponse.afterSends (polls.map fun v => (v, 0x018#10)) env').complete .nothing))) ∧
  ∀ (s : State) (polls : List (List Byte × Byte)) (env' : Env), s.Accepts → s.rst = false →
    s.params.maxPolls = none →
    (Env.SendsAfter (polls.map fun g => (g.1, g.2, 0x01C#10)) s.env env' →
      ∃ k, thenSteps k (exec (.shiftDisplayRight polls.length) s) = .next
        ((s.clearResponse.afterGroups (polls.map fun g => (g.1, g.2, 0x01C#10)) env').complete .nothing)) ∧
    (Env.SendsAfter (polls.map fun g => (g.1, g.2, 0x018#10)) s.env env' →
      ∃ k, thenSteps k (exec (.shiftDisplayLeft polls.length) s) = .next
        ((s.clearResponse.afterGroups (polls.map fun g => (g.1, g.2, 0x018#10)) env').complete .nothing))

/-- R181: every byte of the string in order, each after its own ready-wait, none for the empty string; one pulse of
str_pop for each; at once when every first poll shows ready, else in a number of steps; refused outside Ready. The length
is cmd_n whatever the host presents (the spec's decisions D16, D8): surplus bytes are not sent, and a byte the host does
not present is a free value, which goes out like any other (log 13). -/
def Obligations.WriteStringSendsEveryByte : Prop :=
  (∀ len text, RefusedOutsideReady (.writeString len text)) ∧
  (∀ (s : State) (text : List Byte) (sends : List (Byte × Byte)) (env' : Env), s.Accepts →
    sends.map (fun x => x.2) = (List.range sends.length).map (stringByte text s.strPops) →
    Env.Sends (sends.map fun x => (x.1, BitVec.ofNat 10 (0x200 + x.2.toNat))) s.env env' →
      exec (.writeString sends.length text) s = .next
        (State.complete
          { s.clearResponse.afterSends (sends.map fun x => (x.1, BitVec.ofNat 10 (0x200 + x.2.toNat))) env' with
            strPops := s.strPops + sends.length }
          .nothing)) ∧
  ∀ (s : State) (text : List Byte) (sends : List (List Byte × Byte × Byte)) (env' : Env), s.Accepts → s.rst = false →
    s.params.maxPolls = none →
    sends.map (fun x => x.2.2) = (List.range sends.length).map (stringByte text s.strPops) →
    Env.SendsAfter (sends.map fun x => (x.1, x.2.1, BitVec.ofNat 10 (0x200 + x.2.2.toNat))) s.env env' →
      ∃ k, thenSteps k (exec (.writeString sends.length text) s) = .next
        (State.complete
          { s.clearResponse.afterGroups (sends.map fun x => (x.1, x.2.1, BitVec.ofNat 10 (0x200 + x.2.2.toNat)))
              env' with
            strPops := s.strPops + sends.length }
          .nothing)

/-- R190: from any phase, initialize waits T_STARTUP, enables the timing subsystem, sends 0x038, 0x00E, 0x006 and 0x001,
each after its own ready-wait, and ends in Ready; at once when every first poll shows ready, else in a number of steps (the
spec's decisions D8, D9). -/
def Obligations.InitializeEndsReady : Prop :=
  (∀ (s : State) (v₁ v₂ v₃ v₄ : Byte) (env' : Env), s.seq = .idle → s.atRest = true →
    Env.Sends [(v₁, 0x038#10), (v₂, 0x00E#10), (v₃, 0x006#10), (v₄, 0x001#10)] s.env env' →
    exec .initializeDisplay s = .next
      (State.complete
        { State.afterSends
            { s with rsp := none, timingEnabled := true, trace := s.trace ++ [.delay .startup, .timingEnable] }
            [(v₁, 0x038#10), (v₂, 0x00E#10), (v₃, 0x006#10), (v₄, 0x001#10)] env' with
          phase := .ready }
        .nothing)) ∧
  ∀ (s : State) (b₁ b₂ b₃ b₄ : List Byte) (v₁ v₂ v₃ v₄ : Byte) (env' : Env), s.seq = .idle → s.atRest = true →
    s.rst = false → s.params.maxPolls = none →
    Env.SendsAfter [(b₁, v₁, 0x038#10), (b₂, v₂, 0x00E#10), (b₃, v₃, 0x006#10), (b₄, v₄, 0x001#10)] s.env env' →
    ∃ k, thenSteps k (exec .initializeDisplay s) = .next
      (State.complete
        { State.afterGroups
            { s with rsp := none, timingEnabled := true, trace := s.trace ++ [.delay .startup, .timingEnable] }
            [(b₁, v₁, 0x038#10), (b₂, v₂, 0x00E#10), (b₃, v₃, 0x006#10), (b₄, v₄, 0x001#10)] env' with
          phase := .ready }
        .nothing)

/-- 45_initialization.md, the startup wait: whatever the chip answers, initialize makes no bus event before
`Delay(T_STARTUP)` and `TimingEnable`. -/
def Obligations.InitializeWaitsBeforeTheBus : Prop :=
  ∀ s t : State, s.seq = .idle → exec .initializeDisplay s = .next t →
    ∃ later, t.trace = s.trace ++ [.delay .startup, .timingEnable] ++ later

/-! Acceptance. -/

/-- R194: (a) outside Ready every operation but initialize is refused, with no trace; (b) initialize does the same in
every phase (the spec's decision D8). -/
def Obligations.OnlyInitializeOutsideReady : Prop :=
  (∀ (i : Instr) (s : State), i.isOperation = true → i ≠ .initializeDisplay → s.seq = .idle → s.phase ≠ .ready →
    exec i s = .refused (.notReady s.phase)) ∧
  ∀ (s : State) (p : Phase), s.seq = .idle →
    exec .initializeDisplay { s with phase := p } = exec .initializeDisplay s

/-- 60_exceptions.md section 3: while an operation runs no other is accepted and nothing is taken from the port; that
`exec` then answers the same state is log 14. -/
def Obligations.NothingAcceptedWhileRunning : Prop :=
  ∀ (s : State) (op : Instr) (todo : List Action), s.seq = .running op todo →
    (∀ i : Instr, i.isOperation = true → exec i s = .next s) ∧ ∀ t, step s = .next t → t.host = s.host

/-! The waits. -/

/-- 41_busy_poll.md, with the model's size of a step (log 1): an operation whose first position is AwaitReady, presented
while the chip is busy, has made one status read after its first step and stands before its wait: nothing is written. -/
def Obligations.BusyChipHoldsTheOperation : Prop :=
  ∀ (i : Instr) (s : State) (rest : List Action) (v : Byte) (env₁ : Env), s.Accepts → i.isOperation = true →
    program s.strPops i = .awaitReady 0 :: rest → s.params.maxPolls = none → s.env.AnswersBusy v env₁ →
    exec i s = .next { s.clearResponse.afterRead false v env₁ with seq := .running i (.awaitReady 0 :: rest) }

/-- R131: with unbounded polls AwaitReady makes one status read for each busy answer, standing still (for ever, if the
chip stays busy: R203), and goes on right after the first answer that shows the chip ready. That a poll is a step of its own
is the model's choice (log 1). -/
def Obligations.AwaitReadyEndsAtTheFirstReadyPoll : Prop :=
  ∀ (s : State) (op : Instr) (p : Nat) (rest : List Action) (busy : List Byte) (mid : Env),
    s.rst = false → s.rsp = none → s.atRest = true → s.params.maxPolls = none →
    s.seq = .running op (.awaitReady p :: rest) → Env.BusyFor busy s.env mid →
    runSteps busy.length s = .next (s.afterPolls busy mid) ∧
      ∀ v env', mid.AnswersReady v env' →
        runSteps (busy.length + 1) s = .next { s.afterPolls (busy ++ [v]) env' with seq := .running op rest }

/-- R132: with MAX_POLLS = m, AwaitReady goes on at a ready answer within m polls, and after m busy answers raises
HardwareUnresponsive with no further transaction; what raising does is R207 (the spec's decision D17).
That a poll is a step of its own is log 1, and that the sampled byte is then 0 is log 6. -/
def Obligations.BoundedPollingRaisesHardwareUnresponsive : Prop :=
  ∀ (s : State) (op : Instr) (rest : List Action) (m : Nat) (busy : List Byte) (mid : Env),
    s.rst = false → s.rsp = none → s.atRest = true → s.params.maxPolls = some m → 1 ≤ m →
    s.seq = .running op (.awaitReady 0 :: rest) → Env.BusyFor busy s.env mid →
    (busy.length < m → ∀ v env', mid.AnswersReady v env' →
      runSteps (busy.length + 1) s = .next { s.afterPolls (busy ++ [v]) env' with seq := .running op rest }) ∧
    (busy.length = m →
      runSteps m s = .next
        { s.afterPolls busy mid with
          seq := .idle
          sampled := 0x00#8
          hwFault := true
          rsp := some 0x00#8
          results := s.results ++ [.unresponsive] })

/-- R71, R137: an unbounded wait ends exactly when the chip eventually shows ready. -/
def Obligations.AwaitReadyEndsIffChipEventuallyReady : Prop :=
  ∀ (s : State) (op : Instr) (p : Nat) (rest : List Action),
    s.rst = false → s.atRest = true → s.params.maxPolls = none → s.seq = .running op (.awaitReady p :: rest) →
    ((∃ n t, runSteps n s = .next t ∧ t.seq = .running op rest) ↔ s.env.EventuallyReady)

/-- R140: a write operation presented while the chip is busy for any number of polls completes, with one status read for
each busy answer, one that shows ready, and then its word. The number of steps is the model's choice (log 1). -/
def Obligations.WriteOperationsCompleteAfterTheChipIsReady : Prop :=
  ∀ (s : State) (k : Command) (cmds : List Command) (i : Instr) (w : Word10) (busy : List Byte) (mid : Env) (v : Byte)
    (env₁ env₂ : Env),
    s.Accepts → s.rst = false → s.params.maxPolls = none → s.host = k :: cmds → decode (.command k) = .ok i →
    program s.strPops i = [.awaitReady 0, .write w, .respond .nothing] →
    Env.BusyFor busy s.env mid → mid.AnswersReady v env₁ → env₁.write w = .ok env₂ →
    runSteps (if busy = [] then 1 else busy.length + 3) s = .next
      ((({ s with rsp := none, host := cmds }.afterPolls (busy ++ [v]) env₁).afterWrite w env₂).complete .nothing)

/-! The sequencer. -/

/-- R25: one big step and many small steps give the same (log 1): an operation accepted and then run position by position
reaches what its meaning answers. -/
def Obligations.SmallStepsReachTheMeaning : Prop :=
  ∀ (i : Instr) (s : State), i.isOperation = true → s.seq = .idle → s.rst = false →
    (i ≠ .initializeDisplay → s.phase = .ready) → ∃ n, runSteps n (s.load i) = exec i s

/-- What every instruction leaves alone when it answers a next state: parameters, pins and the port always; PHASE and the
timing subsystem unless it is initialize; str_pop unless it is write-string; DB_OUT for the reads; the results for the
words and selectors; hw_fault is never cleared, and set only with MAX_POLLS finite; the trace only grows. -/
def Obligations.InstructionsLeaveTheRestAlone : Prop :=
  ∀ (i : Instr) (s t : State), exec i s = .next t →
    t.params = s.params ∧ t.rst = s.rst ∧ t.host = s.host ∧
    (i ≠ .initializeDisplay → t.phase = s.phase ∧ t.timingEnabled = s.timingEnabled) ∧
    ((∀ len text, i ≠ .writeString len text) → t.strPops = s.strPops) ∧
    (i = .statusRead ∨ i = .dataRead ∨ i = .isBusy ∨ i = .readAddressCounter ∨ i = .getCurrentLine ∨ i = .readByte →
      t.dbOut = s.dbOut) ∧
    (i.isOperation = false → t.results = s.results ∧ t.seq = s.seq ∧ t.rsp = s.rsp) ∧
    (s.hwFault = true → t.hwFault = true) ∧ (s.params.maxPolls = none → t.hwFault = s.hwFault) ∧
    ∃ later, t.trace = s.trace ++ later

/-- 10_state.md section 7: rsp_valid pulses once when the operation in flight completes: a step either answers nothing,
or appends one result, shows its code, and leaves SEQ Idle (log 18). -/
def Obligations.OneResponsePerCompletion : Prop :=
  ∀ s t : State, step s = .next t →
    (t.rsp = none ∧ t.results = s.results) ∨
      ∃ r, t.results = s.results ++ [r] ∧ t.rsp = some (Result.data s.params r) ∧ t.seq = .idle

/-- R112: only the two transactions touch the bus: no other position changes a latch or makes a line, direction or sample
event. -/
def Obligations.OnlyTransactionsTouchTheBus : Prop :=
  ∀ (a : Action) (s t : State), (act a s).leaves t →
    (∀ p, a ≠ .awaitReady p) → (∀ w, a ≠ .write w) → (∀ sel, a ≠ .read sel) →
    t.rs = s.rs ∧ t.rw = s.rw ∧ t.dbOut = s.dbOut ∧ t.e = s.e ∧ t.ddir = s.ddir ∧ t.env = s.env ∧
      (t.trace = s.trace ∨ (∃ k, t.trace = s.trace ++ [.delay k]) ∨ t.trace = s.trace ++ [.timingEnable])

/-! Invariants. -/

/-- R33: E = 0 and DDIR = OUT at reset and after every step. -/
def Obligations.BusAtRestBetweenSteps : Prop :=
  State.reset.atRest = true ∧ ∀ s t : State, s.atRest = true → step s = .next t → t.atRest = true

/-- The invariants below hold at reset, and so do the launch premises P1 and P2 of R233. That hw_fault is 0 at reset is
log 9, and that the sampled byte is 0 there is log 6. -/
def Obligations.ResetMeetsTheInvariants : Prop :=
  State.reset.Launch ∧ State.reset.OnProgram ∧ State.reset.Guarded ∧ State.reset.PhaseFollows ∧
    State.reset.FaultOnlyBounded ∧ State.reset.env.wf ∧ State.reset.params.wf = true

/-- R25: SEQ is Idle or stands at a position of its operation's own pseudocode; every step keeps it. That the sampled
byte of an idle block is 0 (log 6) and that a string byte is taken before its ready-wait (log 25) are the model's choices. -/
def Obligations.SequencerStaysOnItsProgram : Prop :=
  ∀ s t : State, s.OnProgram → step s = .next t → t.OnProgram

/-- R34, R65, R72 (a), R134: every write transaction and every data read comes directly after a status read that showed
the chip ready; every step keeps it. That a data read is such an instruction is the spec's decision D10 (R182). -/
def Obligations.EveryInstructionIsGuarded : Prop :=
  ∀ s t : State, s.OnProgram → s.Guarded → step s = .next t → t.Guarded

/-- R24, R191: while initialize runs PHASE is the one its position says, and no other operation changes PHASE; every step
keeps it, and only initialize and reset change PHASE. -/
def Obligations.PhaseFollowsInitialization : Prop :=
  ∀ s t : State, s.OnProgram → s.PhaseFollows → step s = .next t →
    t.PhaseFollows ∧
      (t.phase ≠ s.phase → s.rst = true ∨ (∃ todo, s.seq = .running .initializeDisplay todo) ∨
        s.seq = .idle ∧ ∃ k rest, s.host = k :: rest ∧ decode (.command k) = .ok .initializeDisplay)

/-- R207: hw_fault stays set until reset, and is set only when MAX_POLLS is finite (the spec's decision D17). -/
def Obligations.HardwareFaultIsSticky : Prop :=
  ∀ s t : State, step s = .next t →
    (s.hwFault = true → s.rst = false → t.hwFault = true) ∧ (s.FaultOnlyBounded → t.FaultOnlyBounded)

/-- 20_memory.md section 5: the reference chip's memories stay canonical and hold only cells (log 15); the parameters
never change. -/
def Obligations.ChipMemoryStaysCanonical : Prop :=
  ∀ s t : State, s.env.wf → step s = .next t → t.env.wf ∧ t.params = s.params

/-! The reference chip. -/

/-- 20_memory.md section 5, memory of the reference chip under each bus instruction (the chip's other fields:
ChipStateAfterEachInstruction): write data stores its byte in the
one cell the address counter points at and moves the counter by one step (ChipCounterSteps); clear fills DDRAM with
0x20; every other word and both reads leave every byte of both memories. -/
def Obligations.ChipMemoryUnderEachInstruction : Prop :=
  ∀ (i : Instr) (s t : State) (c : Chip), s.env = .reference c → c.wf → i.isOperation = false → exec i s = .next t →
    ∃ c', t.env = .reference c' ∧
      (∀ v, i = .wData v →
        c'.ac = addressStep c.sel c.ac c.increment ∧
        ∀ a,
          Memory.read c'.ddram a = (if c.sel = .ddram ∧ a = c.ac.toNat then v else Memory.read c.ddram a) ∧
          Memory.read c'.cgram a = (if c.sel = .cgram ∧ a = c.ac.toNat then v else Memory.read c.cgram a)) ∧
      (i = .wClear →
        c'.ac = 0#7 ∧ c'.sel = .ddram ∧ c'.shift = 0 ∧ c'.increment = true ∧
        ∀ a, Memory.read c'.ddram a = 0x20#8 ∧ Memory.read c'.cgram a = Memory.read c.cgram a) ∧
      (i ≠ .wClear → (∀ v, i ≠ .wData v) →
        ∀ a, Memory.read c'.ddram a = Memory.read c.ddram a ∧ Memory.read c'.cgram a = Memory.read c.cgram a)

/-- 20_memory.md section 5, the rows of the reference chip's table and its data read, each with every field of the chip:
a chip that is ready takes the word, or gives the byte, and its busy count is a fresh draw (the chip is general knowledge:
log 15, as are the sign of the display shift and the list a memory is). What each byte of memory reads as after write data
is ChipMemoryUnderEachInstruction's; the steps of the counter are ChipCounterSteps's. -/
def Obligations.ChipStateAfterEachInstruction : Prop :=
  ∀ (s : State) (c : Chip) (b : Nat) (d : Draws), s.env = .reference c → s.atRest = true → c.refusing = false →
    c.busy = 0 → c.draws.next = (b, d) →
    (∃ t, exec .wClear s = .next t ∧ t.env = .reference
      { c with busy := b, draws := d, ddram := [], ac := 0#7, sel := .ddram, shift := 0, increment := true }) ∧
    (∃ t, exec .wHome s = .next t ∧ t.env = .reference
      { c with busy := b, draws := d, ac := 0#7, sel := .ddram, shift := 0 }) ∧
    (∀ x y, ∃ t, exec (.wEntry x y) s = .next t ∧ t.env = .reference
      { c with busy := b, draws := d, increment := x, shiftOnWrite := y }) ∧
    (∀ on cur bl, ∃ t, exec (.wDispctl on cur bl) s = .next t ∧ t.env = .reference
      { c with busy := b, draws := d, displayOn := on, cursorOn := cur, blinkOn := bl }) ∧
    (∀ right, ∃ t, exec (.wShift false right) s = .next t ∧ t.env = .reference
      { c with busy := b, draws := d, ac := addressStep c.sel c.ac right }) ∧
    (∀ right, ∃ t, exec (.wShift true right) s = .next t ∧ t.env = .reference
      { c with busy := b, draws := d, shift := if right then c.shift + 1 else c.shift - 1 }) ∧
    (∀ l n f, ∃ t, exec (.wFuncset l n f) s = .next t ∧ t.env = .reference
      { c with busy := b, draws := d, eightBit := l, twoLines := n, bigFont := f, refusing := !l }) ∧
    (∀ a, ∃ t, exec (.wSetcg a) s = .next t ∧ t.env = .reference
      { c with busy := b, draws := d, ac := BitVec.ofNat 7 a.toNat, sel := .cgram }) ∧
    (∀ a, ∃ t, exec (.wSetdd a) s = .next t ∧ t.env = .reference
      { c with busy := b, draws := d, ac := a, sel := .ddram }) ∧
    ((c.sel = .ddram → c.ac.toNat ≤ 0x27 ∨ (0x40 ≤ c.ac.toNat ∧ c.ac.toNat ≤ 0x67)) →
      (c.sel = .cgram → c.ac.toNat < 64) →
      (∀ v, ∃ t, exec (.wData v) s = .next t ∧ t.env = .reference
        { c with
          busy := b
          draws := d
          ac := addressStep c.sel c.ac c.increment
          ddram := if c.sel = .ddram then Memory.write c.ddram c.ac.toNat v else c.ddram
          cgram := if c.sel = .cgram then Memory.write c.cgram c.ac.toNat v else c.cgram }) ∧
      ∃ t, exec .dataRead s = .next t ∧
        t.sampled = (if c.sel = .ddram then Memory.read c.ddram c.ac.toNat else Memory.read c.cgram c.ac.toNat) ∧
        t.env = .reference { c with busy := b, draws := d, ac := addressStep c.sel c.ac c.increment })

/-- 20_memory.md section 5, step(a, up): the four wraps of DDRAM, and CGRAM modulo 64; that the DDRAM counter is
otherwise a 7-bit register is log 15. -/
def Obligations.ChipCounterSteps : Prop :=
  ∀ a : BitVec 7,
    (addressStep .ddram a true).toNat =
      (if a.toNat = 0x27 then 0x40 else if a.toNat = 0x67 then 0x00 else (a.toNat + 1) % 128) ∧
    (addressStep .ddram a false).toNat =
      (if a.toNat = 0x00 then 0x67 else if a.toNat = 0x40 then 0x27 else a.toNat - 1) ∧
    (addressStep .cgram a true).toNat = (a.toNat + 1) % 64 ∧
    (addressStep .cgram a false).toNat = (if a.toNat % 64 = 0 then 63 else a.toNat % 64 - 1)

/-- 20_memory.md sections 2 and 5: a status read of the reference chip changes nothing in it but the busy count it counts
down and the draws it uses, and shows the counter when it is not busy. -/
def Obligations.StatusReadIsHarmless : Prop :=
  ∀ (c c' : Chip) (v : Byte), c.readStatus = .ok (v, c') →
    c' = { c with busy := c.busy - 1, draws := c'.draws } ∧ (busyFlag v = true ↔ c.busy ≠ 0) ∧
      (c.busy = 0 → addressCounter v = c.ac ∧ c' = c)

/-- R75: the round trip against the reference chip, whatever its draws: a byte written at a DDRAM cell is read back after
set-DDRAM-address to that cell. -/
def Obligations.RoundTripReturnsTheByteWritten : Prop :=
  ∀ (s : State) (c : Chip) (v : Byte) (kw kd kr : Command) (cmds : List Command),
    s.Accepts → s.rst = false → s.params.maxPolls = none → s.env = .reference c → c.wf → c.refusing = false →
    c.sel = .ddram → isDdramCell c.ac = true → s.host = kw :: kd :: kr :: cmds →
    decode (.command kw) = .ok (.writeByte v) →
    decode (.command kd) = .ok (.setDDRAMAddress (c.ac.setWidth 8)) → decode (.command kr) = .ok .readByte →
    ∃ n t, runSteps n s = .next t ∧ t.seq = .idle ∧ t.host = cmds ∧
      t.results = s.results ++ [.nothing, .nothing, .byte v]

/-- R71, R137 for the reference chip, whose busy count is finite: from a bus at rest every accepted operation ends, or
the chip refuses it, for a data access at no cell or because it was refusing already (20_memory.md section 5; the gap:
log 15). -/
def Obligations.OperationsEndWithTheReferenceChip : Prop :=
  ∀ (i : Instr) (s : State) (c : Chip), i.isOperation = true → s.rst = false → s.atRest = true →
    s.params.maxPolls = none → s.env = .reference c →
    ∃ n, (∃ t, runSteps n (s.load i) = .next t ∧ t.seq = .idle) ∨
      runSteps n (s.load i) = .refused .chipGap ∨
      (c.refusing = true ∧ runSteps n (s.load i) = .refused .chipNarrowBus)

/-! The mapper. -/

/-- R160. -/
def Obligations.DdramAddressOfAPosition : Prop :=
  ∀ line column : Byte,
    (toDDRAMAddress line column).toNat =
      (if line.toNat ≤ 1 then 0x00 else 0x40) + (min (max column.toNat 1) 40 - 1)

/-- R161. The code of each line on rsp_data and the values above 0x7F are the spec's decisions D15 and D28. -/
def Obligations.LineOfAnAddress : Prop :=
  ∀ a : Byte,
    (classifyAddress a = .line1 ↔ a.toNat ≤ 0x27) ∧
    (classifyAddress a = .line2 ↔ 0x40 ≤ a.toNat ∧ a.toNat ≤ 0x67) ∧
    (classifyAddress a = .unknown ↔ ¬ a.toNat ≤ 0x27 ∧ ¬(0x40 ≤ a.toNat ∧ a.toNat ≤ 0x67)) ∧
    ∀ p, lineCode p .line1 = 1#8 ∧ lineCode p .line2 = 2#8 ∧ lineCode p .unknown = p.lineUnknown

/-- 95_test_vectors.md V-A3: the line of a position's address is the clamped line, never unknown, and the address is a
DDRAM cell. -/
def Obligations.PositionsClassifyToTheirLine : Prop :=
  ∀ line column : Byte,
    classifyAddress ((toDDRAMAddress line column).setWidth 8) = (if line.toNat ≤ 1 then .line1 else .line2) ∧
      isDdramCell (toDDRAMAddress line column) = true

/-! Timing. -/

/-- R8, R114: the minimum of each of the six waits in nanoseconds, T_STARTUP's being 10 ms + MARGIN; every wait asked for
is at least its minimum, the least multiple of DELAY_RES that is; at one microsecond the four short waits are one
microsecond and T_ADD is four (the rounding to the resolution and its value are the spec's decision D23). -/
def Obligations.WaitsAreRoundedUp : Prop :=
  (∀ p : Params,
    Wait.minimum p .setup = 40 ∧ Wait.minimum p .pulse = 80 ∧ Wait.minimum p .hold = 10 ∧
      Wait.minimum p .dataValid = 160 ∧ Wait.minimum p .addressSettle = 4000 ∧
      Wait.minimum p .startup = 10000000 + p.margin) ∧
  (∀ (p : Params) (k : Wait), 1 ≤ p.delayRes →
    k.minimum p ≤ k.asked p ∧ p.delayRes ∣ k.asked p ∧ k.asked p < k.minimum p + p.delayRes) ∧
  ∀ p : Params, p.delayRes = 1000 →
    Wait.asked p .setup = 1000 ∧ Wait.asked p .pulse = 1000 ∧ Wait.asked p .hold = 1000 ∧
      Wait.asked p .dataValid = 1000 ∧ Wait.asked p .addressSettle = 4000

/-- 70_reset_and_hazards.md section 4: the least durations of the two transactions. -/
def Obligations.TransactionsLastTheirMinimum : Prop :=
  ∀ (p : Params) (w : Word10) (rs : Bool) (v : Byte), 1 ≤ p.delayRes →
    130 ≤ askedTime p (writeEvents p w) ∧ 210 ≤ askedTime p (readEvents p rs v) ∧
      (p.delayRes = 1000 → askedTime p (writeEvents p w) = 3000 ∧ askedTime p (readEvents p rs v) = 3000)

/-- 70_reset_and_hazards.md section 4: no rule depends on a duration: with another DELAY_RES, MARGIN or F_CLK every step
does the same. -/
def Obligations.NoStepDependsOnADuration : Prop :=
  ∀ (s : State) (delayRes margin : Nat) (fClk : Option Nat),
    step (s.withTiming delayRes margin fClk) = mapAnswer (fun t => t.withTiming delayRes margin fClk) (step s)
end

