-- ==== Sys2Proof/Laws/Memory.lean ====
section
/-! SUPPORT. The reference chip's memory: read after write, and the canonical form. -/

namespace Sys2Proof.Machine

theorem Memory.read_of_not_listed (m : Memory) (a : Nat) (h : ∀ p ∈ m, p.1 ≠ a) :
    Memory.read m a = Memory.blank := by
  induction m with
  | nil => rfl
  | cons p rest ih =>
    have hp : p.1 ≠ a := h p (by simp)
    simp only [Memory.read, if_neg hp]
    exact ih fun q hq => h q (by simp [hq])

theorem Memory.read_cell_append (a x : Nat) (v : Byte) (m : Memory) :
    Memory.read (Memory.cell a v ++ m) x =
      if v = Memory.blank then Memory.read m x else if a = x then v else Memory.read m x := by
  by_cases hv : v = Memory.blank <;> simp [Memory.cell, hv, Memory.read]

theorem Memory.mem_cell {p : Host.Cell} {a : Nat} {v : Byte} (h : p ∈ Memory.cell a v) :
    p = (a, v) ∧ v ≠ Memory.blank := by
  unfold Memory.cell at h
  split at h
  · simp at h
  · simp at h
    exact ⟨h, ‹_›⟩

theorem Memory.wf_tail {p : Host.Cell} {m : Memory} (h : Memory.wf (p :: m)) : Memory.wf m :=
  ⟨(List.pairwise_cons.mp h.1).2, fun c hc => h.2 c (by simp [hc])⟩

/-- The addresses a write leaves listed. -/
theorem Memory.mem_write {m : Memory} {a : Nat} {v : Byte} {p : Host.Cell} (h : p ∈ Memory.write m a v) :
    p ∈ m ∨ (p = (a, v) ∧ v ≠ Memory.blank) := by
  induction m with
  | nil => exact .inr (Memory.mem_cell h)
  | cons q rest ih =>
    obtain ⟨b, u⟩ := q
    simp only [Memory.write] at h
    split at h
    · rcases List.mem_append.mp h with h | h
      · exact .inr (Memory.mem_cell h)
      · exact .inl h
    · split at h
      · rcases List.mem_append.mp h with h | h
        · exact .inr (Memory.mem_cell h)
        · exact .inl (by simp [h])
      · rcases List.mem_cons.mp h with h | h
        · exact .inl (by simp [h])
        · rcases ih h with h | h
          · exact .inl (by simp [h])
          · exact .inr h

theorem Memory.cell_append_wf {a : Nat} {v : Byte} {m : Memory} (hm : Memory.wf m) (ha : ∀ p ∈ m, a < p.1) :
    Memory.wf (Memory.cell a v ++ m) := by
  by_cases hv : v = Memory.blank
  · simpa [Memory.cell, hv] using hm
  · simp only [Memory.cell, if_neg hv, List.singleton_append]
    refine ⟨List.pairwise_cons.mpr ⟨ha, hm.1⟩, fun c hc => ?_⟩
    rcases List.mem_cons.mp hc with rfl | hc
    · exact hv
    · exact hm.2 c hc

/-- A write keeps the canonical form. -/
theorem Memory.write_wf {m : Memory} (hm : Memory.wf m) (a : Nat) (v : Byte) : Memory.wf (Memory.write m a v) := by
  induction m with
  | nil =>
    have := Memory.cell_append_wf (a := a) (v := v) hm (by simp)
    simpa [Memory.write] using this
  | cons q rest ih =>
    obtain ⟨b, u⟩ := q
    have hb : ∀ p ∈ rest, b < p.1 := (List.pairwise_cons.mp hm.1).1
    have hrest := Memory.wf_tail hm
    simp only [Memory.write]
    split
    · refine Memory.cell_append_wf hm fun p hp => ?_
      rcases List.mem_cons.mp hp with rfl | hp
      · assumption
      · have := hb p hp
        omega
    · split
      · refine Memory.cell_append_wf hrest fun p hp => ?_
        have := hb p hp
        omega
      · refine ⟨List.pairwise_cons.mpr ⟨fun p hp => ?_, (ih hrest).1⟩, fun c hc => ?_⟩
        · rcases Memory.mem_write hp with hp | ⟨rfl, -⟩
          · exact hb p hp
          · show b < a
            omega
        · rcases List.mem_cons.mp hc with rfl | hc
          · exact hm.2 _ (by simp)
          · exact (ih hrest).2 c hc

/-- Reading after a write. -/
theorem Memory.read_write {m : Memory} (hm : Memory.wf m) (a x : Nat) (v : Byte) :
    Memory.read (Memory.write m a v) x = if a = x then v else Memory.read m x := by
  induction m with
  | nil =>
    have := Memory.read_cell_append a x v []
    simp only [List.append_nil] at this
    simp only [Memory.write, this, Memory.read]
    split <;> simp_all
  | cons q rest ih =>
    obtain ⟨b, u⟩ := q
    have hb : ∀ p ∈ rest, b < p.1 := (List.pairwise_cons.mp hm.1).1
    simp only [Memory.write]
    split
    · rw [Memory.read_cell_append]
      by_cases hx : a = x
      · subst hx
        have hblank : Memory.read ((b, u) :: rest) a = Memory.blank := by
          refine Memory.read_of_not_listed _ _ fun p hp => ?_
          rcases List.mem_cons.mp hp with rfl | hp
          · show b ≠ a
            omega
          · have := hb p hp
            omega
        split <;> simp_all
      · simp [hx]
    · split
      · rename_i h1 h2
        subst h2
        rw [Memory.read_cell_append]
        by_cases hx : a = x
        · subst hx
          have hblank : Memory.read rest a = Memory.blank :=
            Memory.read_of_not_listed _ _ fun p hp => by
              have := hb p hp
              omega
          split <;> simp_all
        · simp [Memory.read, hx]
      · simp only [Memory.read, ih (Memory.wf_tail hm)]
        by_cases hbx : b = x
        · subst hbx
          simp_all
        · simp [hbx]

/-- Equal reads are equal memories: the form is canonical. -/
theorem Memory.ext_of_read {m n : Memory} (hm : Memory.wf m) (hn : Memory.wf n)
    (h : ∀ a, Memory.read m a = Memory.read n a) : m = n := by
  have listed : ∀ {b u} {r : Memory}, Memory.wf ((b, u) :: r) → ∀ x, x ≤ b →
      Memory.read ((b, u) :: r) x = if x = b then u else Memory.blank := by
    intro b u r hr x hx
    have hb := (List.pairwise_cons.mp hr.1).1
    by_cases hxb : x = b
    · subst hxb
      simp [Memory.read]
    · rw [if_neg hxb]
      refine Memory.read_of_not_listed _ _ fun p hp => ?_
      rcases List.mem_cons.mp hp with rfl | hp
      · exact fun h => hxb h.symm
      · have := hb p hp
        simp only at this
        omega
  induction m generalizing n with
  | nil =>
    cases n with
    | nil => rfl
    | cons q r =>
      obtain ⟨b, u⟩ := q
      have := h b
      rw [listed hn b le_rfl, if_pos rfl] at this
      exact absurd this.symm (hn.2 (b, u) (by simp))
  | cons p l ih =>
    obtain ⟨a, v⟩ := p
    cases n with
    | nil =>
      have := h a
      rw [listed hm a le_rfl, if_pos rfl] at this
      exact absurd this (hm.2 (a, v) (by simp))
    | cons q r =>
      obtain ⟨b, u⟩ := q
      have hv := hm.2 (a, v) (by simp)
      have hu := hn.2 (b, u) (by simp)
      have hab : a = b := by
        rcases Nat.lt_trichotomy a b with hlt | rfl | hlt
        · have := h a
          rw [listed hm a le_rfl, listed hn a hlt.le, if_pos rfl, if_neg (by omega)] at this
          exact absurd this hv
        · rfl
        · have := h b
          rw [listed hm b hlt.le, listed hn b le_rfl, if_neg (by omega), if_pos rfl] at this
          exact absurd this.symm hu
      subst hab
      have huv : v = u := by
        have := h a
        rwa [listed hm a le_rfl, listed hn a le_rfl, if_pos rfl, if_pos rfl] at this
      subst huv
      refine congrArg _ (ih (Memory.wf_tail hm) (Memory.wf_tail hn) fun x => ?_)
      by_cases hx : x = a
      · subst hx
        have e1 : Memory.read l x = Memory.blank := Memory.read_of_not_listed _ _ fun p hp => by
          have := (List.pairwise_cons.mp hm.1).1 p hp
          simp only at this
          omega
        have e2 : Memory.read r x = Memory.blank := Memory.read_of_not_listed _ _ fun p hp => by
          have := (List.pairwise_cons.mp hn.1).1 p hp
          simp only at this
          omega
        rw [e1, e2]
      · have := h x
        simpa [Memory.read, Ne.symm hx] using this

end Sys2Proof.Machine
end

