-- ==== Sys2Proof/Laws/PerInstr.lean ====
section
/-! SUPPORT. A family of statements about every instruction as syntax: a word the encoder builds has RW = 0 (R83, R116). -/

namespace Sys2Proof.Laws.WordRwClear

/-- If the instruction is a word, the word's bit 8 is 0 (R83). -/
def Statement (i : Instr) : Prop := ∀ w, encode i = .word w → w[8] = false

theorem wClear : Statement .wClear := by rintro w ⟨⟩; rfl
theorem wHome : Statement .wHome := by rintro w ⟨⟩; rfl
theorem wEntry (x y : Bool) : Statement (.wEntry x y) := by rintro w ⟨⟩; cases x <;> cases y <;> rfl
theorem wDispctl (d c b : Bool) : Statement (.wDispctl d c b) := by rintro w ⟨⟩; cases d <;> cases c <;> cases b <;> rfl
theorem wShift (sh d : Bool) : Statement (.wShift sh d) := by rintro w ⟨⟩; cases sh <;> cases d <;> rfl
theorem wFuncset (l n f : Bool) : Statement (.wFuncset l n f) := by rintro w ⟨⟩; cases l <;> cases n <;> cases f <;> rfl
theorem wSetcg (a : BitVec 6) : Statement (.wSetcg a) := by rintro w ⟨⟩; simp [wordSetcg]
theorem wSetdd (a : BitVec 7) : Statement (.wSetdd a) := by rintro w ⟨⟩; simp [wordSetdd]
theorem wData (v : Byte) : Statement (.wData v) := by rintro w ⟨⟩; simp [wordData]
theorem statusRead : Statement .statusRead := by rintro w ⟨⟩
theorem dataRead : Statement .dataRead := by rintro w ⟨⟩
theorem clear : Statement .clear := by rintro w ⟨⟩
theorem returnHome : Statement .returnHome := by rintro w ⟨⟩
theorem entryModeSet (i s : Byte) : Statement (.entryModeSet i s) := by rintro w ⟨⟩
theorem displayControl (d c b : Byte) : Statement (.displayControl d c b) := by rintro w ⟨⟩
theorem shiftCursor (r : Byte) : Statement (.shiftCursor r) := by rintro w ⟨⟩
theorem moveCursor (l c : Byte) : Statement (.moveCursor l c) := by rintro w ⟨⟩
theorem getCurrentLine : Statement .getCurrentLine := by rintro w ⟨⟩
theorem shiftDisplay (r : Byte) : Statement (.shiftDisplay r) := by rintro w ⟨⟩
theorem shiftDisplayRight (n : Nat) : Statement (.shiftDisplayRight n) := by rintro w ⟨⟩
theorem shiftDisplayLeft (n : Nat) : Statement (.shiftDisplayLeft n) := by rintro w ⟨⟩
theorem functionSet (b l f : Byte) : Statement (.functionSet b l f) := by rintro w ⟨⟩
theorem writeByte (b : Byte) : Statement (.writeByte b) := by rintro w ⟨⟩
theorem writeCharacter (c : Byte) : Statement (.writeCharacter c) := by rintro w ⟨⟩
theorem writeString (n : Nat) (t : List Byte) : Statement (.writeString n t) := by rintro w ⟨⟩
theorem setCGRAMAddress (a : Byte) : Statement (.setCGRAMAddress a) := by rintro w ⟨⟩
theorem setDDRAMAddress (a : Byte) : Statement (.setDDRAMAddress a) := by rintro w ⟨⟩
theorem isBusy : Statement .isBusy := by rintro w ⟨⟩
theorem readAddressCounter : Statement .readAddressCounter := by rintro w ⟨⟩
theorem readByte : Statement .readByte := by rintro w ⟨⟩
theorem initializeDisplay : Statement .initializeDisplay := by rintro w ⟨⟩

/-- The family, for every instruction. -/
theorem all (i : Instr) : Statement i := by
  cases i <;> first
    | exact wClear
    | exact wHome
    | exact wEntry _ _
    | exact wDispctl _ _ _
    | exact wShift _ _
    | exact wFuncset _ _ _
    | exact wSetcg _
    | exact wSetdd _
    | exact wData _
    | exact statusRead
    | exact dataRead
    | exact clear
    | exact returnHome
    | exact entryModeSet _ _
    | exact displayControl _ _ _
    | exact shiftCursor _
    | exact moveCursor _ _
    | exact getCurrentLine
    | exact shiftDisplay _
    | exact shiftDisplayRight _
    | exact shiftDisplayLeft _
    | exact functionSet _ _ _
    | exact writeByte _
    | exact writeCharacter _
    | exact writeString _ _
    | exact setCGRAMAddress _
    | exact setDDRAMAddress _
    | exact isBusy
    | exact readAddressCounter
    | exact readByte
    | exact initializeDisplay

end Sys2Proof.Laws.WordRwClear
end

