-- ==== Sys2Proof/Laws/State.lean ====
section
/-! SUPPORT. One lemma for each field of State under each named update: what it becomes, or that it is kept. -/

namespace Sys2Proof.Machine

variable (s : State)

@[simp] theorem State.setPhase_params (p : Phase) : (s.setPhase p).params = s.params := rfl
@[simp] theorem State.setPhase_rs (p : Phase) : (s.setPhase p).rs = s.rs := rfl
@[simp] theorem State.setPhase_rw (p : Phase) : (s.setPhase p).rw = s.rw := rfl
@[simp] theorem State.setPhase_dbOut (p : Phase) : (s.setPhase p).dbOut = s.dbOut := rfl
@[simp] theorem State.setPhase_e (p : Phase) : (s.setPhase p).e = s.e := rfl
@[simp] theorem State.setPhase_ddir (p : Phase) : (s.setPhase p).ddir = s.ddir := rfl
@[simp] theorem State.setPhase_phase (p : Phase) : (s.setPhase p).phase = p := rfl
@[simp] theorem State.setPhase_seq (p : Phase) : (s.setPhase p).seq = s.seq := rfl
@[simp] theorem State.setPhase_sampled (p : Phase) : (s.setPhase p).sampled = s.sampled := rfl
@[simp] theorem State.setPhase_hwFault (p : Phase) : (s.setPhase p).hwFault = s.hwFault := rfl
@[simp] theorem State.setPhase_rsp (p : Phase) : (s.setPhase p).rsp = s.rsp := rfl
@[simp] theorem State.setPhase_timingEnabled (p : Phase) : (s.setPhase p).timingEnabled = s.timingEnabled := rfl
@[simp] theorem State.setPhase_rst (p : Phase) : (s.setPhase p).rst = s.rst := rfl
@[simp] theorem State.setPhase_host (p : Phase) : (s.setPhase p).host = s.host := rfl
@[simp] theorem State.setPhase_env (p : Phase) : (s.setPhase p).env = s.env := rfl
@[simp] theorem State.setPhase_trace (p : Phase) : (s.setPhase p).trace = s.trace := rfl
@[simp] theorem State.setPhase_results (p : Phase) : (s.setPhase p).results = s.results := rfl
@[simp] theorem State.setPhase_strPops (p : Phase) : (s.setPhase p).strPops = s.strPops := rfl

@[simp] theorem State.setSeq_params (q : Sequencer) : (s.setSeq q).params = s.params := rfl
@[simp] theorem State.setSeq_rs (q : Sequencer) : (s.setSeq q).rs = s.rs := rfl
@[simp] theorem State.setSeq_rw (q : Sequencer) : (s.setSeq q).rw = s.rw := rfl
@[simp] theorem State.setSeq_dbOut (q : Sequencer) : (s.setSeq q).dbOut = s.dbOut := rfl
@[simp] theorem State.setSeq_e (q : Sequencer) : (s.setSeq q).e = s.e := rfl
@[simp] theorem State.setSeq_ddir (q : Sequencer) : (s.setSeq q).ddir = s.ddir := rfl
@[simp] theorem State.setSeq_phase (q : Sequencer) : (s.setSeq q).phase = s.phase := rfl
@[simp] theorem State.setSeq_seq (q : Sequencer) : (s.setSeq q).seq = q := rfl
@[simp] theorem State.setSeq_sampled (q : Sequencer) : (s.setSeq q).sampled = s.sampled := rfl
@[simp] theorem State.setSeq_hwFault (q : Sequencer) : (s.setSeq q).hwFault = s.hwFault := rfl
@[simp] theorem State.setSeq_rsp (q : Sequencer) : (s.setSeq q).rsp = s.rsp := rfl
@[simp] theorem State.setSeq_timingEnabled (q : Sequencer) : (s.setSeq q).timingEnabled = s.timingEnabled := rfl
@[simp] theorem State.setSeq_rst (q : Sequencer) : (s.setSeq q).rst = s.rst := rfl
@[simp] theorem State.setSeq_host (q : Sequencer) : (s.setSeq q).host = s.host := rfl
@[simp] theorem State.setSeq_env (q : Sequencer) : (s.setSeq q).env = s.env := rfl
@[simp] theorem State.setSeq_trace (q : Sequencer) : (s.setSeq q).trace = s.trace := rfl
@[simp] theorem State.setSeq_results (q : Sequencer) : (s.setSeq q).results = s.results := rfl
@[simp] theorem State.setSeq_strPops (q : Sequencer) : (s.setSeq q).strPops = s.strPops := rfl

@[simp] theorem State.setSampled_params (v : Byte) : (s.setSampled v).params = s.params := rfl
@[simp] theorem State.setSampled_rs (v : Byte) : (s.setSampled v).rs = s.rs := rfl
@[simp] theorem State.setSampled_rw (v : Byte) : (s.setSampled v).rw = s.rw := rfl
@[simp] theorem State.setSampled_dbOut (v : Byte) : (s.setSampled v).dbOut = s.dbOut := rfl
@[simp] theorem State.setSampled_e (v : Byte) : (s.setSampled v).e = s.e := rfl
@[simp] theorem State.setSampled_ddir (v : Byte) : (s.setSampled v).ddir = s.ddir := rfl
@[simp] theorem State.setSampled_phase (v : Byte) : (s.setSampled v).phase = s.phase := rfl
@[simp] theorem State.setSampled_seq (v : Byte) : (s.setSampled v).seq = s.seq := rfl
@[simp] theorem State.setSampled_sampled (v : Byte) : (s.setSampled v).sampled = v := rfl
@[simp] theorem State.setSampled_hwFault (v : Byte) : (s.setSampled v).hwFault = s.hwFault := rfl
@[simp] theorem State.setSampled_rsp (v : Byte) : (s.setSampled v).rsp = s.rsp := rfl
@[simp] theorem State.setSampled_timingEnabled (v : Byte) : (s.setSampled v).timingEnabled = s.timingEnabled := rfl
@[simp] theorem State.setSampled_rst (v : Byte) : (s.setSampled v).rst = s.rst := rfl
@[simp] theorem State.setSampled_host (v : Byte) : (s.setSampled v).host = s.host := rfl
@[simp] theorem State.setSampled_env (v : Byte) : (s.setSampled v).env = s.env := rfl
@[simp] theorem State.setSampled_trace (v : Byte) : (s.setSampled v).trace = s.trace := rfl
@[simp] theorem State.setSampled_results (v : Byte) : (s.setSampled v).results = s.results := rfl
@[simp] theorem State.setSampled_strPops (v : Byte) : (s.setSampled v).strPops = s.strPops := rfl

@[simp] theorem State.setEnv_params (env : Env) : (s.setEnv env).params = s.params := rfl
@[simp] theorem State.setEnv_rs (env : Env) : (s.setEnv env).rs = s.rs := rfl
@[simp] theorem State.setEnv_rw (env : Env) : (s.setEnv env).rw = s.rw := rfl
@[simp] theorem State.setEnv_dbOut (env : Env) : (s.setEnv env).dbOut = s.dbOut := rfl
@[simp] theorem State.setEnv_e (env : Env) : (s.setEnv env).e = s.e := rfl
@[simp] theorem State.setEnv_ddir (env : Env) : (s.setEnv env).ddir = s.ddir := rfl
@[simp] theorem State.setEnv_phase (env : Env) : (s.setEnv env).phase = s.phase := rfl
@[simp] theorem State.setEnv_seq (env : Env) : (s.setEnv env).seq = s.seq := rfl
@[simp] theorem State.setEnv_sampled (env : Env) : (s.setEnv env).sampled = s.sampled := rfl
@[simp] theorem State.setEnv_hwFault (env : Env) : (s.setEnv env).hwFault = s.hwFault := rfl
@[simp] theorem State.setEnv_rsp (env : Env) : (s.setEnv env).rsp = s.rsp := rfl
@[simp] theorem State.setEnv_timingEnabled (env : Env) : (s.setEnv env).timingEnabled = s.timingEnabled := rfl
@[simp] theorem State.setEnv_rst (env : Env) : (s.setEnv env).rst = s.rst := rfl
@[simp] theorem State.setEnv_host (env : Env) : (s.setEnv env).host = s.host := rfl
@[simp] theorem State.setEnv_env (env : Env) : (s.setEnv env).env = env := rfl
@[simp] theorem State.setEnv_trace (env : Env) : (s.setEnv env).trace = s.trace := rfl
@[simp] theorem State.setEnv_results (env : Env) : (s.setEnv env).results = s.results := rfl
@[simp] theorem State.setEnv_strPops (env : Env) : (s.setEnv env).strPops = s.strPops := rfl

@[simp] theorem State.setHost_params (cmds : List Command) : (s.setHost cmds).params = s.params := rfl
@[simp] theorem State.setHost_rs (cmds : List Command) : (s.setHost cmds).rs = s.rs := rfl
@[simp] theorem State.setHost_rw (cmds : List Command) : (s.setHost cmds).rw = s.rw := rfl
@[simp] theorem State.setHost_dbOut (cmds : List Command) : (s.setHost cmds).dbOut = s.dbOut := rfl
@[simp] theorem State.setHost_e (cmds : List Command) : (s.setHost cmds).e = s.e := rfl
@[simp] theorem State.setHost_ddir (cmds : List Command) : (s.setHost cmds).ddir = s.ddir := rfl
@[simp] theorem State.setHost_phase (cmds : List Command) : (s.setHost cmds).phase = s.phase := rfl
@[simp] theorem State.setHost_seq (cmds : List Command) : (s.setHost cmds).seq = s.seq := rfl
@[simp] theorem State.setHost_sampled (cmds : List Command) : (s.setHost cmds).sampled = s.sampled := rfl
@[simp] theorem State.setHost_hwFault (cmds : List Command) : (s.setHost cmds).hwFault = s.hwFault := rfl
@[simp] theorem State.setHost_rsp (cmds : List Command) : (s.setHost cmds).rsp = s.rsp := rfl
@[simp] theorem State.setHost_timingEnabled (cmds : List Command) : (s.setHost cmds).timingEnabled = s.timingEnabled := rfl
@[simp] theorem State.setHost_rst (cmds : List Command) : (s.setHost cmds).rst = s.rst := rfl
@[simp] theorem State.setHost_host (cmds : List Command) : (s.setHost cmds).host = cmds := rfl
@[simp] theorem State.setHost_env (cmds : List Command) : (s.setHost cmds).env = s.env := rfl
@[simp] theorem State.setHost_trace (cmds : List Command) : (s.setHost cmds).trace = s.trace := rfl
@[simp] theorem State.setHost_results (cmds : List Command) : (s.setHost cmds).results = s.results := rfl
@[simp] theorem State.setHost_strPops (cmds : List Command) : (s.setHost cmds).strPops = s.strPops := rfl

@[simp] theorem State.clearResponse_params : (s.clearResponse).params = s.params := rfl
@[simp] theorem State.clearResponse_rs : (s.clearResponse).rs = s.rs := rfl
@[simp] theorem State.clearResponse_rw : (s.clearResponse).rw = s.rw := rfl
@[simp] theorem State.clearResponse_dbOut : (s.clearResponse).dbOut = s.dbOut := rfl
@[simp] theorem State.clearResponse_e : (s.clearResponse).e = s.e := rfl
@[simp] theorem State.clearResponse_ddir : (s.clearResponse).ddir = s.ddir := rfl
@[simp] theorem State.clearResponse_phase : (s.clearResponse).phase = s.phase := rfl
@[simp] theorem State.clearResponse_seq : (s.clearResponse).seq = s.seq := rfl
@[simp] theorem State.clearResponse_sampled : (s.clearResponse).sampled = s.sampled := rfl
@[simp] theorem State.clearResponse_hwFault : (s.clearResponse).hwFault = s.hwFault := rfl
@[simp] theorem State.clearResponse_rsp : (s.clearResponse).rsp = none := rfl
@[simp] theorem State.clearResponse_timingEnabled : (s.clearResponse).timingEnabled = s.timingEnabled := rfl
@[simp] theorem State.clearResponse_rst : (s.clearResponse).rst = s.rst := rfl
@[simp] theorem State.clearResponse_host : (s.clearResponse).host = s.host := rfl
@[simp] theorem State.clearResponse_env : (s.clearResponse).env = s.env := rfl
@[simp] theorem State.clearResponse_trace : (s.clearResponse).trace = s.trace := rfl
@[simp] theorem State.clearResponse_results : (s.clearResponse).results = s.results := rfl
@[simp] theorem State.clearResponse_strPops : (s.clearResponse).strPops = s.strPops := rfl

@[simp] theorem State.emit_params (ev : Event) : (s.emit ev).params = s.params := rfl
@[simp] theorem State.emit_rs (ev : Event) : (s.emit ev).rs = s.rs := rfl
@[simp] theorem State.emit_rw (ev : Event) : (s.emit ev).rw = s.rw := rfl
@[simp] theorem State.emit_dbOut (ev : Event) : (s.emit ev).dbOut = s.dbOut := rfl
@[simp] theorem State.emit_e (ev : Event) : (s.emit ev).e = s.e := rfl
@[simp] theorem State.emit_ddir (ev : Event) : (s.emit ev).ddir = s.ddir := rfl
@[simp] theorem State.emit_phase (ev : Event) : (s.emit ev).phase = s.phase := rfl
@[simp] theorem State.emit_seq (ev : Event) : (s.emit ev).seq = s.seq := rfl
@[simp] theorem State.emit_sampled (ev : Event) : (s.emit ev).sampled = s.sampled := rfl
@[simp] theorem State.emit_hwFault (ev : Event) : (s.emit ev).hwFault = s.hwFault := rfl
@[simp] theorem State.emit_rsp (ev : Event) : (s.emit ev).rsp = s.rsp := rfl
@[simp] theorem State.emit_timingEnabled (ev : Event) : (s.emit ev).timingEnabled = s.timingEnabled := rfl
@[simp] theorem State.emit_rst (ev : Event) : (s.emit ev).rst = s.rst := rfl
@[simp] theorem State.emit_host (ev : Event) : (s.emit ev).host = s.host := rfl
@[simp] theorem State.emit_env (ev : Event) : (s.emit ev).env = s.env := rfl
@[simp] theorem State.emit_trace (ev : Event) : (s.emit ev).trace = s.trace ++ [ev] := rfl
@[simp] theorem State.emit_results (ev : Event) : (s.emit ev).results = s.results := rfl
@[simp] theorem State.emit_strPops (ev : Event) : (s.emit ev).strPops = s.strPops := rfl

@[simp] theorem State.driveRs_params (v : Bool) : (s.driveRs v).params = s.params := rfl
@[simp] theorem State.driveRs_rs (v : Bool) : (s.driveRs v).rs = v := rfl
@[simp] theorem State.driveRs_rw (v : Bool) : (s.driveRs v).rw = s.rw := rfl
@[simp] theorem State.driveRs_dbOut (v : Bool) : (s.driveRs v).dbOut = s.dbOut := rfl
@[simp] theorem State.driveRs_e (v : Bool) : (s.driveRs v).e = s.e := rfl
@[simp] theorem State.driveRs_ddir (v : Bool) : (s.driveRs v).ddir = s.ddir := rfl
@[simp] theorem State.driveRs_phase (v : Bool) : (s.driveRs v).phase = s.phase := rfl
@[simp] theorem State.driveRs_seq (v : Bool) : (s.driveRs v).seq = s.seq := rfl
@[simp] theorem State.driveRs_sampled (v : Bool) : (s.driveRs v).sampled = s.sampled := rfl
@[simp] theorem State.driveRs_hwFault (v : Bool) : (s.driveRs v).hwFault = s.hwFault := rfl
@[simp] theorem State.driveRs_rsp (v : Bool) : (s.driveRs v).rsp = s.rsp := rfl
@[simp] theorem State.driveRs_timingEnabled (v : Bool) : (s.driveRs v).timingEnabled = s.timingEnabled := rfl
@[simp] theorem State.driveRs_rst (v : Bool) : (s.driveRs v).rst = s.rst := rfl
@[simp] theorem State.driveRs_host (v : Bool) : (s.driveRs v).host = s.host := rfl
@[simp] theorem State.driveRs_env (v : Bool) : (s.driveRs v).env = s.env := rfl
@[simp] theorem State.driveRs_trace (v : Bool) : (s.driveRs v).trace = s.trace ++ [.line .rs v] := rfl
@[simp] theorem State.driveRs_results (v : Bool) : (s.driveRs v).results = s.results := rfl
@[simp] theorem State.driveRs_strPops (v : Bool) : (s.driveRs v).strPops = s.strPops := rfl

@[simp] theorem State.driveRw_params (v : Bool) : (s.driveRw v).params = s.params := rfl
@[simp] theorem State.driveRw_rs (v : Bool) : (s.driveRw v).rs = s.rs := rfl
@[simp] theorem State.driveRw_rw (v : Bool) : (s.driveRw v).rw = v := rfl
@[simp] theorem State.driveRw_dbOut (v : Bool) : (s.driveRw v).dbOut = s.dbOut := rfl
@[simp] theorem State.driveRw_e (v : Bool) : (s.driveRw v).e = s.e := rfl
@[simp] theorem State.driveRw_ddir (v : Bool) : (s.driveRw v).ddir = s.ddir := rfl
@[simp] theorem State.driveRw_phase (v : Bool) : (s.driveRw v).phase = s.phase := rfl
@[simp] theorem State.driveRw_seq (v : Bool) : (s.driveRw v).seq = s.seq := rfl
@[simp] theorem State.driveRw_sampled (v : Bool) : (s.driveRw v).sampled = s.sampled := rfl
@[simp] theorem State.driveRw_hwFault (v : Bool) : (s.driveRw v).hwFault = s.hwFault := rfl
@[simp] theorem State.driveRw_rsp (v : Bool) : (s.driveRw v).rsp = s.rsp := rfl
@[simp] theorem State.driveRw_timingEnabled (v : Bool) : (s.driveRw v).timingEnabled = s.timingEnabled := rfl
@[simp] theorem State.driveRw_rst (v : Bool) : (s.driveRw v).rst = s.rst := rfl
@[simp] theorem State.driveRw_host (v : Bool) : (s.driveRw v).host = s.host := rfl
@[simp] theorem State.driveRw_env (v : Bool) : (s.driveRw v).env = s.env := rfl
@[simp] theorem State.driveRw_trace (v : Bool) : (s.driveRw v).trace = s.trace ++ [.line .rw v] := rfl
@[simp] theorem State.driveRw_results (v : Bool) : (s.driveRw v).results = s.results := rfl
@[simp] theorem State.driveRw_strPops (v : Bool) : (s.driveRw v).strPops = s.strPops := rfl

@[simp] theorem State.driveData_params (k : Fin 8) (v : Bool) : (s.driveData k v).params = s.params := rfl
@[simp] theorem State.driveData_rs (k : Fin 8) (v : Bool) : (s.driveData k v).rs = s.rs := rfl
@[simp] theorem State.driveData_rw (k : Fin 8) (v : Bool) : (s.driveData k v).rw = s.rw := rfl
@[simp] theorem State.driveData_dbOut (k : Fin 8) (v : Bool) : (s.driveData k v).dbOut = setBit s.dbOut k v := rfl
@[simp] theorem State.driveData_e (k : Fin 8) (v : Bool) : (s.driveData k v).e = s.e := rfl
@[simp] theorem State.driveData_ddir (k : Fin 8) (v : Bool) : (s.driveData k v).ddir = s.ddir := rfl
@[simp] theorem State.driveData_phase (k : Fin 8) (v : Bool) : (s.driveData k v).phase = s.phase := rfl
@[simp] theorem State.driveData_seq (k : Fin 8) (v : Bool) : (s.driveData k v).seq = s.seq := rfl
@[simp] theorem State.driveData_sampled (k : Fin 8) (v : Bool) : (s.driveData k v).sampled = s.sampled := rfl
@[simp] theorem State.driveData_hwFault (k : Fin 8) (v : Bool) : (s.driveData k v).hwFault = s.hwFault := rfl
@[simp] theorem State.driveData_rsp (k : Fin 8) (v : Bool) : (s.driveData k v).rsp = s.rsp := rfl
@[simp] theorem State.driveData_timingEnabled (k : Fin 8) (v : Bool) : (s.driveData k v).timingEnabled = s.timingEnabled := rfl
@[simp] theorem State.driveData_rst (k : Fin 8) (v : Bool) : (s.driveData k v).rst = s.rst := rfl
@[simp] theorem State.driveData_host (k : Fin 8) (v : Bool) : (s.driveData k v).host = s.host := rfl
@[simp] theorem State.driveData_env (k : Fin 8) (v : Bool) : (s.driveData k v).env = s.env := rfl
@[simp] theorem State.driveData_trace (k : Fin 8) (v : Bool) : (s.driveData k v).trace = s.trace ++ [.line (.data k) v] := rfl
@[simp] theorem State.driveData_results (k : Fin 8) (v : Bool) : (s.driveData k v).results = s.results := rfl
@[simp] theorem State.driveData_strPops (k : Fin 8) (v : Bool) : (s.driveData k v).strPops = s.strPops := rfl

@[simp] theorem State.driveEnable_params (on : Bool) : (s.driveEnable on).params = s.params := rfl
@[simp] theorem State.driveEnable_rs (on : Bool) : (s.driveEnable on).rs = s.rs := rfl
@[simp] theorem State.driveEnable_rw (on : Bool) : (s.driveEnable on).rw = s.rw := rfl
@[simp] theorem State.driveEnable_dbOut (on : Bool) : (s.driveEnable on).dbOut = s.dbOut := rfl
@[simp] theorem State.driveEnable_e (on : Bool) : (s.driveEnable on).e = on := rfl
@[simp] theorem State.driveEnable_ddir (on : Bool) : (s.driveEnable on).ddir = s.ddir := rfl
@[simp] theorem State.driveEnable_phase (on : Bool) : (s.driveEnable on).phase = s.phase := rfl
@[simp] theorem State.driveEnable_seq (on : Bool) : (s.driveEnable on).seq = s.seq := rfl
@[simp] theorem State.driveEnable_sampled (on : Bool) : (s.driveEnable on).sampled = s.sampled := rfl
@[simp] theorem State.driveEnable_hwFault (on : Bool) : (s.driveEnable on).hwFault = s.hwFault := rfl
@[simp] theorem State.driveEnable_rsp (on : Bool) : (s.driveEnable on).rsp = s.rsp := rfl
@[simp] theorem State.driveEnable_timingEnabled (on : Bool) : (s.driveEnable on).timingEnabled = s.timingEnabled := rfl
@[simp] theorem State.driveEnable_rst (on : Bool) : (s.driveEnable on).rst = s.rst := rfl
@[simp] theorem State.driveEnable_host (on : Bool) : (s.driveEnable on).host = s.host := rfl
@[simp] theorem State.driveEnable_env (on : Bool) : (s.driveEnable on).env = s.env := rfl
@[simp] theorem State.driveEnable_trace (on : Bool) : (s.driveEnable on).trace = s.trace ++ [.line .enable (on == s.params.eActive)] := rfl
@[simp] theorem State.driveEnable_results (on : Bool) : (s.driveEnable on).results = s.results := rfl
@[simp] theorem State.driveEnable_strPops (on : Bool) : (s.driveEnable on).strPops = s.strPops := rfl

@[simp] theorem State.setDirection_params (m : Direction) : (s.setDirection m).params = s.params := rfl
@[simp] theorem State.setDirection_rs (m : Direction) : (s.setDirection m).rs = s.rs := rfl
@[simp] theorem State.setDirection_rw (m : Direction) : (s.setDirection m).rw = s.rw := rfl
@[simp] theorem State.setDirection_dbOut (m : Direction) : (s.setDirection m).dbOut = s.dbOut := rfl
@[simp] theorem State.setDirection_e (m : Direction) : (s.setDirection m).e = s.e := rfl
@[simp] theorem State.setDirection_ddir (m : Direction) : (s.setDirection m).ddir = m := rfl
@[simp] theorem State.setDirection_phase (m : Direction) : (s.setDirection m).phase = s.phase := rfl
@[simp] theorem State.setDirection_seq (m : Direction) : (s.setDirection m).seq = s.seq := rfl
@[simp] theorem State.setDirection_sampled (m : Direction) : (s.setDirection m).sampled = s.sampled := rfl
@[simp] theorem State.setDirection_hwFault (m : Direction) : (s.setDirection m).hwFault = s.hwFault := rfl
@[simp] theorem State.setDirection_rsp (m : Direction) : (s.setDirection m).rsp = s.rsp := rfl
@[simp] theorem State.setDirection_timingEnabled (m : Direction) : (s.setDirection m).timingEnabled = s.timingEnabled := rfl
@[simp] theorem State.setDirection_rst (m : Direction) : (s.setDirection m).rst = s.rst := rfl
@[simp] theorem State.setDirection_host (m : Direction) : (s.setDirection m).host = s.host := rfl
@[simp] theorem State.setDirection_env (m : Direction) : (s.setDirection m).env = s.env := rfl
@[simp] theorem State.setDirection_trace (m : Direction) : (s.setDirection m).trace = s.trace ++ [.dir m] := rfl
@[simp] theorem State.setDirection_results (m : Direction) : (s.setDirection m).results = s.results := rfl
@[simp] theorem State.setDirection_strPops (m : Direction) : (s.setDirection m).strPops = s.strPops := rfl

@[simp] theorem State.delay_params (k : Wait) : (s.delay k).params = s.params := rfl
@[simp] theorem State.delay_rs (k : Wait) : (s.delay k).rs = s.rs := rfl
@[simp] theorem State.delay_rw (k : Wait) : (s.delay k).rw = s.rw := rfl
@[simp] theorem State.delay_dbOut (k : Wait) : (s.delay k).dbOut = s.dbOut := rfl
@[simp] theorem State.delay_e (k : Wait) : (s.delay k).e = s.e := rfl
@[simp] theorem State.delay_ddir (k : Wait) : (s.delay k).ddir = s.ddir := rfl
@[simp] theorem State.delay_phase (k : Wait) : (s.delay k).phase = s.phase := rfl
@[simp] theorem State.delay_seq (k : Wait) : (s.delay k).seq = s.seq := rfl
@[simp] theorem State.delay_sampled (k : Wait) : (s.delay k).sampled = s.sampled := rfl
@[simp] theorem State.delay_hwFault (k : Wait) : (s.delay k).hwFault = s.hwFault := rfl
@[simp] theorem State.delay_rsp (k : Wait) : (s.delay k).rsp = s.rsp := rfl
@[simp] theorem State.delay_timingEnabled (k : Wait) : (s.delay k).timingEnabled = s.timingEnabled := rfl
@[simp] theorem State.delay_rst (k : Wait) : (s.delay k).rst = s.rst := rfl
@[simp] theorem State.delay_host (k : Wait) : (s.delay k).host = s.host := rfl
@[simp] theorem State.delay_env (k : Wait) : (s.delay k).env = s.env := rfl
@[simp] theorem State.delay_trace (k : Wait) : (s.delay k).trace = s.trace ++ [.delay k] := rfl
@[simp] theorem State.delay_results (k : Wait) : (s.delay k).results = s.results := rfl
@[simp] theorem State.delay_strPops (k : Wait) : (s.delay k).strPops = s.strPops := rfl

@[simp] theorem State.enableTiming_params : (s.enableTiming).params = s.params := rfl
@[simp] theorem State.enableTiming_rs : (s.enableTiming).rs = s.rs := rfl
@[simp] theorem State.enableTiming_rw : (s.enableTiming).rw = s.rw := rfl
@[simp] theorem State.enableTiming_dbOut : (s.enableTiming).dbOut = s.dbOut := rfl
@[simp] theorem State.enableTiming_e : (s.enableTiming).e = s.e := rfl
@[simp] theorem State.enableTiming_ddir : (s.enableTiming).ddir = s.ddir := rfl
@[simp] theorem State.enableTiming_phase : (s.enableTiming).phase = s.phase := rfl
@[simp] theorem State.enableTiming_seq : (s.enableTiming).seq = s.seq := rfl
@[simp] theorem State.enableTiming_sampled : (s.enableTiming).sampled = s.sampled := rfl
@[simp] theorem State.enableTiming_hwFault : (s.enableTiming).hwFault = s.hwFault := rfl
@[simp] theorem State.enableTiming_rsp : (s.enableTiming).rsp = s.rsp := rfl
@[simp] theorem State.enableTiming_timingEnabled : (s.enableTiming).timingEnabled = true := rfl
@[simp] theorem State.enableTiming_rst : (s.enableTiming).rst = s.rst := rfl
@[simp] theorem State.enableTiming_host : (s.enableTiming).host = s.host := rfl
@[simp] theorem State.enableTiming_env : (s.enableTiming).env = s.env := rfl
@[simp] theorem State.enableTiming_trace : (s.enableTiming).trace = s.trace ++ [.timingEnable] := rfl
@[simp] theorem State.enableTiming_results : (s.enableTiming).results = s.results := rfl
@[simp] theorem State.enableTiming_strPops : (s.enableTiming).strPops = s.strPops := rfl

@[simp] theorem State.takeByte_params : (s.takeByte).params = s.params := rfl
@[simp] theorem State.takeByte_rs : (s.takeByte).rs = s.rs := rfl
@[simp] theorem State.takeByte_rw : (s.takeByte).rw = s.rw := rfl
@[simp] theorem State.takeByte_dbOut : (s.takeByte).dbOut = s.dbOut := rfl
@[simp] theorem State.takeByte_e : (s.takeByte).e = s.e := rfl
@[simp] theorem State.takeByte_ddir : (s.takeByte).ddir = s.ddir := rfl
@[simp] theorem State.takeByte_phase : (s.takeByte).phase = s.phase := rfl
@[simp] theorem State.takeByte_seq : (s.takeByte).seq = s.seq := rfl
@[simp] theorem State.takeByte_sampled : (s.takeByte).sampled = s.sampled := rfl
@[simp] theorem State.takeByte_hwFault : (s.takeByte).hwFault = s.hwFault := rfl
@[simp] theorem State.takeByte_rsp : (s.takeByte).rsp = s.rsp := rfl
@[simp] theorem State.takeByte_timingEnabled : (s.takeByte).timingEnabled = s.timingEnabled := rfl
@[simp] theorem State.takeByte_rst : (s.takeByte).rst = s.rst := rfl
@[simp] theorem State.takeByte_host : (s.takeByte).host = s.host := rfl
@[simp] theorem State.takeByte_env : (s.takeByte).env = s.env := rfl
@[simp] theorem State.takeByte_trace : (s.takeByte).trace = s.trace := rfl
@[simp] theorem State.takeByte_results : (s.takeByte).results = s.results := rfl
@[simp] theorem State.takeByte_strPops : (s.takeByte).strPops = s.strPops + 1 := rfl

@[simp] theorem State.complete_params (r : Result) : (s.complete r).params = s.params := rfl
@[simp] theorem State.complete_rs (r : Result) : (s.complete r).rs = s.rs := rfl
@[simp] theorem State.complete_rw (r : Result) : (s.complete r).rw = s.rw := rfl
@[simp] theorem State.complete_dbOut (r : Result) : (s.complete r).dbOut = s.dbOut := rfl
@[simp] theorem State.complete_e (r : Result) : (s.complete r).e = s.e := rfl
@[simp] theorem State.complete_ddir (r : Result) : (s.complete r).ddir = s.ddir := rfl
@[simp] theorem State.complete_phase (r : Result) : (s.complete r).phase = s.phase := rfl
@[simp] theorem State.complete_seq (r : Result) : (s.complete r).seq = .idle := rfl
@[simp] theorem State.complete_sampled (r : Result) : (s.complete r).sampled = 0x00#8 := rfl
@[simp] theorem State.complete_hwFault (r : Result) : (s.complete r).hwFault = s.hwFault := rfl
@[simp] theorem State.complete_rsp (r : Result) : (s.complete r).rsp = some (r.data s.params) := rfl
@[simp] theorem State.complete_timingEnabled (r : Result) : (s.complete r).timingEnabled = s.timingEnabled := rfl
@[simp] theorem State.complete_rst (r : Result) : (s.complete r).rst = s.rst := rfl
@[simp] theorem State.complete_host (r : Result) : (s.complete r).host = s.host := rfl
@[simp] theorem State.complete_env (r : Result) : (s.complete r).env = s.env := rfl
@[simp] theorem State.complete_trace (r : Result) : (s.complete r).trace = s.trace := rfl
@[simp] theorem State.complete_results (r : Result) : (s.complete r).results = s.results ++ [r] := rfl
@[simp] theorem State.complete_strPops (r : Result) : (s.complete r).strPops = s.strPops := rfl

@[simp] theorem State.raiseHardwareUnresponsive_params : (s.raiseHardwareUnresponsive).params = s.params := rfl
@[simp] theorem State.raiseHardwareUnresponsive_rs : (s.raiseHardwareUnresponsive).rs = s.rs := rfl
@[simp] theorem State.raiseHardwareUnresponsive_rw : (s.raiseHardwareUnresponsive).rw = s.rw := rfl
@[simp] theorem State.raiseHardwareUnresponsive_dbOut : (s.raiseHardwareUnresponsive).dbOut = s.dbOut := rfl
@[simp] theorem State.raiseHardwareUnresponsive_e : (s.raiseHardwareUnresponsive).e = s.e := rfl
@[simp] theorem State.raiseHardwareUnresponsive_ddir : (s.raiseHardwareUnresponsive).ddir = s.ddir := rfl
@[simp] theorem State.raiseHardwareUnresponsive_phase : (s.raiseHardwareUnresponsive).phase = s.phase := rfl
@[simp] theorem State.raiseHardwareUnresponsive_seq : (s.raiseHardwareUnresponsive).seq = .idle := rfl
@[simp] theorem State.raiseHardwareUnresponsive_sampled : (s.raiseHardwareUnresponsive).sampled = 0x00#8 := rfl
@[simp] theorem State.raiseHardwareUnresponsive_hwFault : (s.raiseHardwareUnresponsive).hwFault = true := rfl
@[simp] theorem State.raiseHardwareUnresponsive_rsp : (s.raiseHardwareUnresponsive).rsp = some 0x00#8 := rfl
@[simp] theorem State.raiseHardwareUnresponsive_timingEnabled : (s.raiseHardwareUnresponsive).timingEnabled = s.timingEnabled := rfl
@[simp] theorem State.raiseHardwareUnresponsive_rst : (s.raiseHardwareUnresponsive).rst = s.rst := rfl
@[simp] theorem State.raiseHardwareUnresponsive_host : (s.raiseHardwareUnresponsive).host = s.host := rfl
@[simp] theorem State.raiseHardwareUnresponsive_env : (s.raiseHardwareUnresponsive).env = s.env := rfl
@[simp] theorem State.raiseHardwareUnresponsive_trace : (s.raiseHardwareUnresponsive).trace = s.trace := rfl
@[simp] theorem State.raiseHardwareUnresponsive_results : (s.raiseHardwareUnresponsive).results = s.results ++ [.unresponsive] := rfl
@[simp] theorem State.raiseHardwareUnresponsive_strPops : (s.raiseHardwareUnresponsive).strPops = s.strPops := rfl

@[simp] theorem State.blockReset_params : (s.blockReset).params = s.params := rfl
@[simp] theorem State.blockReset_rs : (s.blockReset).rs = false := rfl
@[simp] theorem State.blockReset_rw : (s.blockReset).rw = false := rfl
@[simp] theorem State.blockReset_dbOut : (s.blockReset).dbOut = 0x00#8 := rfl
@[simp] theorem State.blockReset_e : (s.blockReset).e = false := rfl
@[simp] theorem State.blockReset_ddir : (s.blockReset).ddir = .outward := rfl
@[simp] theorem State.blockReset_phase : (s.blockReset).phase = .powerOn := rfl
@[simp] theorem State.blockReset_seq : (s.blockReset).seq = .idle := rfl
@[simp] theorem State.blockReset_sampled : (s.blockReset).sampled = 0x00#8 := rfl
@[simp] theorem State.blockReset_hwFault : (s.blockReset).hwFault = false := rfl
@[simp] theorem State.blockReset_rsp : (s.blockReset).rsp = none := rfl
@[simp] theorem State.blockReset_timingEnabled : (s.blockReset).timingEnabled = s.timingEnabled := rfl
@[simp] theorem State.blockReset_rst : (s.blockReset).rst = false := rfl
@[simp] theorem State.blockReset_host : (s.blockReset).host = s.host := rfl
@[simp] theorem State.blockReset_env : (s.blockReset).env = s.env := rfl
@[simp] theorem State.blockReset_trace : (s.blockReset).trace = s.trace := rfl
@[simp] theorem State.blockReset_results : (s.blockReset).results = s.results := rfl
@[simp] theorem State.blockReset_strPops : (s.blockReset).strPops = s.strPops := rfl

end Sys2Proof.Machine
end

