-- ==== Sys2Proof/Laws/Transactions.lean ====
section
/-! SUPPORT. What a transaction can answer, said once: its refusals, and what it leaves (R110, R111, R116, R119). -/

namespace Sys2Proof.Machine

/-- Eight bit updates in the order of R110 are the low byte of the word. -/
theorem setBits_eq_low_byte (b : Byte) (w : Word10) :
    setBit (setBit (setBit (setBit (setBit (setBit (setBit (setBit b 7 w[7]) 6 w[6]) 5 w[5]) 4 w[4]) 3 w[3]) 2 w[2]) 1
      w[1]) 0 w[0] = w.extractLsb' 0 8 := by
  have hset : ∀ (x : Byte) (k : Fin 8) (v : Bool) (i : Nat), i < 8 →
      (setBit x k v).getLsbD i = if i = k.val then v else x.getLsbD i := by
    intro x k v i hi
    by_cases hik : i = k.val
    · subst hik
      cases v <;> simp [setBit, hi]
    · cases v <;> simp [setBit, hi, hik] <;> omega
  refine BitVec.eq_of_getLsbD_eq fun i hi => ?_
  have : i = 0 ∨ i = 1 ∨ i = 2 ∨ i = 3 ∨ i = 4 ∨ i = 5 ∨ i = 6 ∨ i = 7 := by omega
  rcases this with rfl | rfl | rfl | rfl | rfl | rfl | rfl | rfl <;>
    simp (disch := decide) only [hset] <;> simp

/-- The ten line writes of R110: the lines carry the word, in ten events. -/
theorem State.driveWord_eq (s : State) (w : Word10) :
    s.driveWord w =
      { s with
        rs := w[9]
        rw := w[8]
        dbOut := w.extractLsb' 0 8
        trace := s.trace ++ [.line .rs w[9], .line .rw w[8], .line (.data 7) w[7], .line (.data 6) w[6],
          .line (.data 5) w[5], .line (.data 4) w[4], .line (.data 3) w[3], .line (.data 2) w[2],
          .line (.data 1) w[1], .line (.data 0) w[0]] } := by
  simp only [State.driveWord, State.driveData, State.driveRw, State.driveRs, State.emit, setBits_eq_low_byte,
    List.append_assoc, List.cons_append, List.nil_append]

/-- At rest: E deasserted and the data lines driven (R33). -/
theorem State.atRest_iff (s : State) : s.atRest = true ↔ s.e = false ∧ s.ddir = .outward := by
  simp [State.atRest]

/-- What a write transaction answers, case by case. -/
theorem writeTransaction_cases (w : Word10) (s : State) :
    (w[8] = true ∧ writeTransaction w s = .refused .writeWithRwSet) ∨
    (w[8] = false ∧ s.atRest = false ∧ writeTransaction w s = .refused .busNotAtRest) ∨
    (w[8] = false ∧ s.atRest = true ∧ ∃ r, s.env.write w = .error r ∧ writeTransaction w s = .refused r) ∨
    (w[8] = false ∧ s.atRest = true ∧ ∃ env, s.env.write w = .ok env ∧
      writeTransaction w s = .next (s.afterWrite w env)) := by
  by_cases hw : w[8] = true
  · exact .inl ⟨hw, by simp [writeTransaction, hw]⟩
  · have hw : w[8] = false := by simpa using hw
    by_cases hr : s.atRest = true
    · obtain ⟨he, hd⟩ := s.atRest_iff.mp hr
      cases henv : s.env.write w with
      | error r => exact .inr (.inr (.inl ⟨hw, hr, r, rfl, by simp [writeTransaction, hw, hr, henv]⟩))
      | ok env =>
        refine .inr (.inr (.inr ⟨hw, hr, env, rfl, ?_⟩))
        simp [writeTransaction, hw, hr, henv, State.driveWord_eq, State.delay, State.driveEnable, State.setEnv,
          State.emit, State.afterWrite, writeEvents, hd]
    · have hr : s.atRest = false := by simpa using hr
      exact .inr (.inl ⟨hw, hr, by simp [writeTransaction, hw, hr]⟩)

/-- What a write transaction leaves when it is not refused. -/
theorem writeTransaction_next {w : Word10} {s t : State} (h : writeTransaction w s = .next t) :
    w[8] = false ∧ s.atRest = true ∧ ∃ env, s.env.write w = .ok env ∧ t = s.afterWrite w env := by
  rcases writeTransaction_cases w s with ⟨-, e⟩ | ⟨-, -, e⟩ | ⟨-, -, r, -, e⟩ | ⟨hw, hr, env, henv, e⟩ <;>
    rw [e] at h
  · cases h
  · cases h
  · cases h
  · exact ⟨hw, hr, env, henv, by injection h with h; exact h.symm⟩

/-- What a read answers, case by case. -/
theorem readBus_cases (rs rw : Bool) (s : State) :
    (rw = false ∧ readBus rs rw s = .error .readWithRwClear) ∨
    (rw = true ∧ s.atRest = false ∧ readBus rs rw s = .error .busNotAtRest) ∨
    (rw = true ∧ s.atRest = true ∧ ∃ r, s.env.read rs = .error r ∧ readBus rs rw s = .error r) ∨
    (rw = true ∧ s.atRest = true ∧ ∃ v env, s.env.read rs = .ok (v, env) ∧
      readBus rs rw s = .ok (v, s.afterRead rs v env)) := by
  cases rw with
  | false => exact .inl ⟨rfl, by simp [readBus]⟩
  | true =>
    by_cases hr : s.atRest = true
    · cases henv : s.env.read rs with
      | error r => exact .inr (.inr (.inl ⟨rfl, hr, r, rfl, by simp [readBus, hr, henv]⟩))
      | ok p =>
        obtain ⟨v, env⟩ := p
        refine .inr (.inr (.inr ⟨rfl, hr, v, env, rfl, ?_⟩))
        simp [readBus, hr, henv, State.driveRs, State.driveRw, State.delay, State.driveEnable, State.setDirection,
          State.setEnv, State.emit, State.afterRead, readEvents]
    · have hr : s.atRest = false := by simpa using hr
      exact .inr (.inl ⟨rfl, hr, by simp [readBus, hr]⟩)

/-- What a read leaves when it is not refused. -/
theorem readBus_ok {rs rw : Bool} {s t : State} {v : Byte} (h : readBus rs rw s = .ok (v, t)) :
    rw = true ∧ s.atRest = true ∧ ∃ env, s.env.read rs = .ok (v, env) ∧ t = s.afterRead rs v env := by
  rcases readBus_cases rs rw s with ⟨-, e⟩ | ⟨-, -, e⟩ | ⟨-, -, r, -, e⟩ | ⟨hw, hr, u, env, henv, e⟩ <;> rw [e] at h
  · cases h
  · cases h
  · cases h
  · cases h
    exact ⟨hw, hr, env, henv, rfl⟩

/-- What a read transaction leaves when it is not refused. -/
theorem readTransaction_next {rs rw : Bool} {s t : State} (h : readTransaction rs rw s = .next t) :
    rw = true ∧ s.atRest = true ∧
      ∃ v env, s.env.read rs = .ok (v, env) ∧ t = (s.afterRead rs v env).setSampled v := by
  unfold readTransaction at h
  split at h
  · cases h
  · rename_i v u hb
    obtain ⟨hw, hr, env, henv, rfl⟩ := readBus_ok hb
    exact ⟨hw, hr, v, env, henv, by injection h with h; exact h.symm⟩

/-- A read that the environment answers, from a bus at rest. -/
theorem readBus_eq {rs : Bool} {s : State} {v : Byte} {env : Env} (hr : s.atRest = true)
    (henv : s.env.read rs = .ok (v, env)) : readBus rs true s = .ok (v, s.afterRead rs v env) := by
  rcases readBus_cases rs true s with ⟨h, -⟩ | ⟨-, h, -⟩ | ⟨-, -, r, h, -⟩ | ⟨-, -, u, env', h, e⟩
  · cases h
  · simp [hr] at h
  · simp [henv] at h
  · rw [henv] at h
    cases h
    exact e

end Sys2Proof.Machine
end

