-- ==== Sys2Proof/Laws/Sequencer.lean ====
section
/-! SUPPORT. The sequencer: what one poll, one position and a run of positions can answer; every operation's meaning as a
run of its program; the induction over a run and over a step. -/

namespace Sys2Proof.Machine

/-! One poll, one position. -/

/-- What one poll answers, case by case. -/
theorem pollOnce_cases (polls : Nat) (s : State) :
    (∃ r, readBus false true s = .error r ∧ pollOnce polls s = .refused r) ∨
    (∃ v env, s.atRest = true ∧ s.env.AnswersReady v env ∧
      pollOnce polls s = .onward (s.afterRead false v env)) ∨
    (∃ v env, s.atRest = true ∧ s.env.AnswersBusy v env ∧
      pollOnce polls s = afterBusyPoll polls (s.afterRead false v env)) := by
  rcases readBus_cases false true s with ⟨h, -⟩ | ⟨-, -, e⟩ | ⟨-, -, r, -, e⟩ | ⟨-, hr, v, env, henv, e⟩
  · cases h
  · exact .inl ⟨_, e, by simp [pollOnce, e]⟩
  · exact .inl ⟨_, e, by simp [pollOnce, e]⟩
  · cases hb : busyFlag v with
    | false => exact .inr (.inl ⟨v, env, hr, ⟨henv, hb⟩, by simp [pollOnce, e, hb]⟩)
    | true => exact .inr (.inr ⟨v, env, hr, ⟨henv, hb⟩, by simp [pollOnce, e, hb]⟩)

/-- A poll that shows the chip ready. -/
theorem pollOnce_ready {s : State} {v : Byte} {env : Env} (polls : Nat) (hr : s.atRest = true)
    (h : s.env.AnswersReady v env) : pollOnce polls s = .onward (s.afterRead false v env) := by
  simp [pollOnce, readBus_eq hr h.1, h.2]

/-- The same, as a position. -/
theorem act_awaitReady_ready {s : State} {v : Byte} {env : Env} (polls : Nat) (hr : s.atRest = true)
    (h : s.env.AnswersReady v env) : act (.awaitReady polls) s = .onward (s.afterRead false v env) :=
  pollOnce_ready polls hr h

/-- A poll that shows the chip busy. -/
theorem pollOnce_busy {s : State} {v : Byte} {env : Env} (polls : Nat) (hr : s.atRest = true)
    (h : s.env.AnswersBusy v env) : pollOnce polls s = afterBusyPoll polls (s.afterRead false v env) := by
  simp [pollOnce, readBus_eq hr h.1, h.2]

/-- A busy poll without a bound on the polls: the operation stays where it is (R130). -/
@[simp] theorem afterBusyPoll_unbounded {s : State} (polls : Nat) (h : s.params.maxPolls = none) :
    afterBusyPoll polls s = .waiting (.awaitReady polls) s := by
  simp [afterBusyPoll, h]

/-- A busy poll with a bound (R132). -/
theorem afterBusyPoll_bounded {s : State} {m : Nat} (polls : Nat) (h : s.params.maxPolls = some m) :
    afterBusyPoll polls s =
      if m ≤ polls + 1 then .ended s.raiseHardwareUnresponsive else .waiting (.awaitReady (polls + 1)) s := by
  simp [afterBusyPoll, h]

/-- A write position the environment lets through. -/
theorem act_write {s : State} {w : Word10} {env : Env} (hr : s.atRest = true) (hw : w[8] = false)
    (henv : s.env.write w = .ok env) : act (.write w) s = .onward (s.afterWrite w env) := by
  rcases writeTransaction_cases w s with ⟨h, -⟩ | ⟨-, h, -⟩ | ⟨-, -, r, h, -⟩ | ⟨-, -, e', h, e⟩
  · simp [hw] at h
  · simp [hr] at h
  · simp [henv] at h
  · rw [henv] at h
    cases h
    simp [act, progressOf, e]

/-- A read position the environment answers. -/
theorem act_read {s : State} {sel : BitVec 2} {v : Byte} {env : Env} (hr : s.atRest = true) (hw : sel[0] = true)
    (henv : s.env.read sel[1] = .ok (v, env)) :
    act (.read sel) s = .onward ((s.afterRead sel[1] v env).setSampled v) := by
  simp [act, progressOf, readTransaction, hw, readBus_eq hr henv]

/-- What one position leaves, case by case: everything it can do. -/
theorem act_leaves {a : Action} {s t : State} (h : (act a s).leaves t) :
    (∃ p v env, a = .awaitReady p ∧ s.atRest = true ∧ s.env.read false = .ok (v, env) ∧
      (t = s.afterRead false v env ∨
        (busyFlag v = true ∧ s.params.maxPolls ≠ none ∧
          t = (s.afterRead false v env).raiseHardwareUnresponsive))) ∨
    (∃ k, a = .delay k ∧ t = s.delay k) ∨
    (a = .enableTiming ∧ t = s.enableTiming) ∨
    (∃ p, a = .enterPhase p ∧ t = s.setPhase p) ∨
    (a = .takeByte ∧ t = s.takeByte) ∨
    (∃ w env, a = .write w ∧ w[8] = false ∧ s.atRest = true ∧ s.env.write w = .ok env ∧ t = s.afterWrite w env) ∨
    (∃ sel v env, a = .read sel ∧ sel[0] = true ∧ s.atRest = true ∧ s.env.read sel[1] = .ok (v, env) ∧
      t = (s.afterRead sel[1] v env).setSampled v) ∨
    (∃ r, a = .respond r ∧ t = s.complete (r.result s.sampled)) := by
  cases a with
  | awaitReady p =>
    refine .inl ?_
    rcases pollOnce_cases p s with ⟨r, -, e⟩ | ⟨v, env, hr, hv, e⟩ | ⟨v, env, hr, hv, e⟩
    · simp [act, e, Progress.leaves] at h
    · simp only [act, e, Progress.leaves, Progress.onward.injEq, reduceCtorEq, exists_false, or_false] at h
      exact ⟨p, v, env, rfl, hr, hv.1, .inl h.symm⟩
    · refine ⟨p, v, env, rfl, hr, hv.1, ?_⟩
      simp only [act, e] at h
      cases hm : s.params.maxPolls with
      | none =>
        rw [afterBusyPoll_unbounded p (by simpa [State.afterRead] using hm)] at h
        simp only [Progress.leaves, Progress.waiting.injEq, reduceCtorEq, or_false, false_or] at h
        obtain ⟨-, -, h⟩ := h
        exact .inl h.symm
      | some m =>
        rw [afterBusyPoll_bounded (m := m) p (by simpa [State.afterRead] using hm)] at h
        split at h
        · simp only [Progress.leaves, Progress.ended.injEq, reduceCtorEq, exists_false, false_or] at h
          exact .inr ⟨hv.2, by simp, h.symm⟩
        · simp only [Progress.leaves, Progress.waiting.injEq, reduceCtorEq, or_false, false_or] at h
          obtain ⟨-, -, h⟩ := h
          exact .inl h.symm
  | delay k =>
    simp only [act, Progress.leaves, Progress.onward.injEq, reduceCtorEq, exists_false, or_false] at h
    exact .inr (.inl ⟨k, rfl, h.symm⟩)
  | enableTiming =>
    simp only [act, Progress.leaves, Progress.onward.injEq, reduceCtorEq, exists_false, or_false] at h
    exact .inr (.inr (.inl ⟨rfl, h.symm⟩))
  | enterPhase p =>
    simp only [act, Progress.leaves, Progress.onward.injEq, reduceCtorEq, exists_false, or_false] at h
    exact .inr (.inr (.inr (.inl ⟨p, rfl, h.symm⟩)))
  | takeByte =>
    simp only [act, Progress.leaves, Progress.onward.injEq, reduceCtorEq, exists_false, or_false] at h
    exact .inr (.inr (.inr (.inr (.inl ⟨rfl, h.symm⟩))))
  | write w =>
    refine .inr (.inr (.inr (.inr (.inr (.inl ?_)))))
    cases e : writeTransaction w s with
    | refused r => simp [act, progressOf, e, Progress.leaves] at h
    | fault f => cases f
    | next u =>
      simp only [act, progressOf, e, Progress.leaves, Progress.onward.injEq, reduceCtorEq, exists_false,
        or_false] at h
      subst h
      obtain ⟨hw, hr, env, henv, rfl⟩ := writeTransaction_next e
      exact ⟨w, env, rfl, hw, hr, henv, rfl⟩
  | read sel =>
    refine .inr (.inr (.inr (.inr (.inr (.inr (.inl ?_))))))
    cases e : readTransaction sel[1] sel[0] s with
    | refused r => simp [act, progressOf, e, Progress.leaves] at h
    | fault f => cases f
    | next u =>
      simp only [act, progressOf, e, Progress.leaves, Progress.onward.injEq, reduceCtorEq, exists_false,
        or_false] at h
      subst h
      obtain ⟨hw, hr, v, env, henv, rfl⟩ := readTransaction_next e
      exact ⟨sel, v, env, rfl, hw, hr, henv, rfl⟩
  | respond r =>
    simp only [act, Progress.leaves, Progress.ended.injEq, reduceCtorEq, exists_false, false_or] at h
    exact .inr (.inr (.inr (.inr (.inr (.inr (.inr ⟨r, rfl, h.symm⟩))))))

/-! A run of positions. -/

theorem runActions_onward {op : Instr} {a : Action} {rest : List Action} {s t : State} (h : act a s = .onward t) :
    runActions op (a :: rest) s = runActions op rest t := by
  simp [runActions, h]

theorem runActions_waiting {op : Instr} {a a' : Action} {rest : List Action} {s t : State}
    (h : act a s = .waiting a' t) :
    runActions op (a :: rest) s = .next (t.setSeq (.running op (a' :: rest))) := by
  simp [runActions, h]

theorem runActions_ended {op : Instr} {a : Action} {rest : List Action} {s t : State} (h : act a s = .ended t) :
    runActions op (a :: rest) s = .next t := by
  simp [runActions, h]

/-- The induction over a run: a relation that every position keeps holds between its ends. -/
theorem runActions_induction {R : State → State → Prop}
    (trans : ∀ s t u, R s t → R t u → R s u) (hact : ∀ a s t, (act a s).leaves t → R s t)
    (hdone : ∀ s, R s (s.complete .nothing)) (hseq : ∀ s q, R s (s.setSeq q)) (op : Instr) (todo : List Action)
    (s t : State) (h : runActions op todo s = .next t) : R s t := by
  induction todo generalizing s with
  | nil =>
    simp only [runActions, Host.Outcome.next.injEq] at h
    exact h ▸ hdone s
  | cons a rest ih =>
    cases e : act a s with
    | onward u =>
      rw [runActions_onward e] at h
      exact trans _ _ _ (hact a s u (.inl e)) (ih u h)
    | waiting a' u =>
      rw [runActions_waiting e] at h
      simp only [Host.Outcome.next.injEq] at h
      exact h ▸ trans _ _ _ (hact a s u (.inr (.inl ⟨a', e⟩))) (hseq u _)
    | ended u =>
      rw [runActions_ended e] at h
      simp only [Host.Outcome.next.injEq] at h
      exact h ▸ hact a s u (.inr (.inr e))
    | refused r => simp [runActions, e] at h

/-! Every operation's meaning is a run of its program; every word's and selector's is one transaction. -/

/-- Every operation but initialize, as acceptance and a run of its program. -/
theorem exec_operation {i : Instr} (hop : i.isOperation = true) (hinit : i ≠ .initializeDisplay) (s : State) :
    exec i s = runWhenReady i (program s.strPops i) s := by
  cases i <;> first | rfl | exact absurd rfl hinit | cases hop

/-- initialize. -/
theorem exec_initialize (s : State) :
    exec .initializeDisplay s = runInAnyPhase .initializeDisplay (program s.strPops .initializeDisplay) s := rfl

/-- An instruction that decodes from a word writes that word. -/
theorem exec_word {i : Instr} {w : Word10} (h : encode i = .word w) (s : State) : exec i s = writeTransaction w s := by
  cases i <;> first | (simp only [encode, Encoded.word.injEq] at h; subst h; rfl) | (exact absurd h (by simp [encode, command, countedCommand]))

/-- An instruction that decodes from a selector reads with it. -/
theorem exec_selector {i : Instr} {sel : BitVec 2} (h : encode i = .selector sel) (s : State) :
    exec i s = readTransaction sel[1] sel[0] s := by
  cases i <;> first | (simp only [encode, Encoded.selector.injEq] at h; subst h; rfl) | (exact absurd h (by simp [encode, command, countedCommand]))

/-- Every instruction is an operation, or a word, or a selector. -/
theorem instr_kinds (i : Instr) :
    i.isOperation = true ∨ (∃ w, encode i = .word w) ∨ ∃ sel, encode i = .selector sel := by
  cases i <;> simp [Instr.isOperation, encode]

/-- What an instruction leaves when it answers a next state. -/
theorem exec_next {i : Instr} {s t : State} (h : exec i s = .next t) :
    (i.isOperation = true ∧ s.seq ≠ .idle ∧ t = s) ∨
    (i.isOperation = true ∧ s.seq = .idle ∧ (i ≠ .initializeDisplay → s.phase = .ready) ∧
      runActions i (program s.strPops i) s.clearResponse = .next t) ∨
    (∃ w env, encode i = .word w ∧ w[8] = false ∧ s.atRest = true ∧ s.env.write w = .ok env ∧
      t = s.afterWrite w env) ∨
    (∃ sel v env, encode i = .selector sel ∧ sel[0] = true ∧ s.atRest = true ∧
      s.env.read sel[1] = .ok (v, env) ∧ t = (s.afterRead sel[1] v env).setSampled v) := by
  rcases instr_kinds i with hop | ⟨w, hw⟩ | ⟨sel, hs⟩
  · cases hq : s.seq with
    | running op todo =>
      refine .inl ⟨hop, by simp, ?_⟩
      by_cases hi : i = .initializeDisplay
      · subst hi
        simpa [exec_initialize, runInAnyPhase, hq] using h.symm
      · simpa [exec_operation hop hi, runWhenReady, hq] using h.symm
    | idle =>
      refine .inr (.inl ⟨hop, rfl, ?_⟩)
      by_cases hi : i = .initializeDisplay
      · subst hi
        exact ⟨fun h => absurd rfl h, by simpa [exec_initialize, runInAnyPhase, hq] using h⟩
      · rw [exec_operation hop hi] at h
        simp only [runWhenReady, hq] at h
        split at h
        · exact ⟨fun _ => ‹_›, h⟩
        · cases h
  · rw [exec_word hw] at h
    obtain ⟨h8, hr, env, henv, rfl⟩ := writeTransaction_next h
    exact .inr (.inr (.inl ⟨w, env, hw, h8, hr, henv, rfl⟩))
  · rw [exec_selector hs] at h
    obtain ⟨h0, hr, v, env, henv, rfl⟩ := readTransaction_next h
    exact .inr (.inr (.inr ⟨sel, v, env, hs, h0, hr, henv, rfl⟩))

/-! The step. -/

/-- What a step that answers a next state did, case by case: everything a step can do. -/
theorem step_next {s t : State} (h : step s = .next t) :
    (s.rst = true ∧ s.seq = .idle ∧ t = s.clearResponse.blockReset) ∨
    (s.rst = false ∧ s.seq = .idle ∧ s.host = [] ∧ t = s.clearResponse) ∨
    (∃ k rest i, s.rst = false ∧ s.seq = .idle ∧ s.host = k :: rest ∧ decode (.command k) = .ok i ∧
      exec i (s.clearResponse.setHost rest) = .next t) ∨
    (∃ op w rest i, s.rst = false ∧ s.seq = .running op (.write w :: rest) ∧ decode (.word w) = .ok i ∧
      exec i (s.clearResponse.setSeq (.running op rest)) = .next t) ∨
    (∃ op sel rest i, s.rst = false ∧ s.seq = .running op (.read sel :: rest) ∧ decode (.selector sel) = .ok i ∧
      exec i (s.clearResponse.setSeq (.running op rest)) = .next t) ∨
    (∃ op todo, s.rst = false ∧ s.seq = .running op todo ∧ (∀ w rest, todo ≠ .write w :: rest) ∧
      (∀ sel rest, todo ≠ .read sel :: rest) ∧ runOneAction op todo s.clearResponse = .next t) := by
  cases hr : s.rst with
  | true =>
    refine .inl ⟨rfl, ?_⟩
    cases hq : s.seq with
    | idle => simpa [step, fetch, hr, takeReset, hq] using h.symm
    | running op todo => simp [step, fetch, hr, takeReset, hq] at h
  | false =>
    cases hq : s.seq with
    | idle =>
      cases hh : s.host with
      | nil => exact .inr (.inl ⟨rfl, rfl, rfl, by simpa [step, fetch, hr, hq, fetchCommand, hh] using h.symm⟩)
      | cons k rest =>
        simp only [step, fetch, hr, hq, hh, State.clearResponse_rst, State.clearResponse_seq, Bool.false_eq_true,
          if_false, fetchCommand, State.clearResponse_host] at h
        cases hd : decode (.command k) with
        | error why => simp [hd] at h
        | ok i =>
          simp only [hd] at h
          exact .inr (.inr (.inl ⟨k, rest, i, rfl, rfl, rfl, hd, h⟩))
    | running op todo =>
      simp only [step, fetch, hr, hq, State.clearResponse_rst, State.clearResponse_seq, Bool.false_eq_true, if_false,
        fetchPosition] at h
      split at h
      · rename_i i u hrun
        split at hrun
        · rename_i w rest
          simp only [fetchTransaction] at hrun
          split at hrun
          · rename_i j hd
            simp only [Fetched.run.injEq] at hrun
            obtain ⟨rfl, rfl⟩ := hrun
            exact .inr (.inr (.inr (.inl ⟨op, w, rest, j, rfl, rfl, hd, h⟩)))
          · cases hrun
        · rename_i sel rest
          simp only [fetchTransaction] at hrun
          split at hrun
          · rename_i j hd
            simp only [Fetched.run.injEq] at hrun
            obtain ⟨rfl, rfl⟩ := hrun
            exact .inr (.inr (.inr (.inr (.inl ⟨op, sel, rest, j, rfl, rfl, hd, h⟩))))
          · cases hrun
        · cases hrun
      · rename_i a hans
        split at hans
        · simp only [fetchTransaction] at hans
          split at hans
          · cases hans
          · simp only [Fetched.answer.injEq] at hans
            subst hans
            cases h
        · simp only [fetchTransaction] at hans
          split at hans
          · cases hans
          · simp only [Fetched.answer.injEq] at hans
            subst hans
            cases h
        · rename_i h1 h2
          simp only [Fetched.answer.injEq] at hans
          subst hans
          exact .inr (.inr (.inr (.inr (.inr
            ⟨op, todo, rfl, rfl, fun w rest e => h1 w rest e, fun sel rest e => h2 sel rest e, h⟩))))

/-- What one position, taken by itself, leaves. -/
theorem runOneAction_next {op : Instr} {todo : List Action} {s t : State} (h : runOneAction op todo s = .next t) :
    (todo = [] ∧ t = s.complete .nothing) ∨
    (∃ a rest u, todo = a :: rest ∧ act a s = .onward u ∧ t = u.setSeq (.running op rest)) ∨
    (∃ a rest a' u, todo = a :: rest ∧ act a s = .waiting a' u ∧ t = u.setSeq (.running op (a' :: rest))) ∨
    (∃ a rest, todo = a :: rest ∧ act a s = .ended t) := by
  cases todo with
  | nil => exact .inl ⟨rfl, by simpa [runOneAction] using h.symm⟩
  | cons a rest =>
    cases e : act a s with
    | onward u => exact .inr (.inl ⟨a, rest, u, rfl, e, by simpa [runOneAction, e] using h.symm⟩)
    | waiting a' u => exact .inr (.inr (.inl ⟨a, rest, a', u, rfl, e, by simpa [runOneAction, e] using h.symm⟩))
    | ended u =>
      simp only [runOneAction, e, Host.Outcome.next.injEq] at h
      exact .inr (.inr (.inr ⟨a, rest, rfl, by rw [e, h]⟩))
    | refused r => simp [runOneAction, e] at h

/-- The induction over a step: a relation that every position, every change of SEQ, HOST and the response, completion
and reset keep, holds across a step. -/
theorem step_induction {R : State → State → Prop} (refl : ∀ s, R s s)
    (trans : ∀ s t u, R s t → R t u → R s u) (hact : ∀ a s t, (act a s).leaves t → R s t)
    (hdone : ∀ s, R s (s.complete .nothing)) (hseq : ∀ s q, R s (s.setSeq q)) (hhost : ∀ s c, R s (s.setHost c))
    (hrsp : ∀ s, R s s.clearResponse) (hreset : ∀ s, R s s.blockReset) {s t : State} (h : step s = .next t) :
    R s t := by
  have hexec : ∀ i s t, exec i s = .next t → R s t := by
    intro i s t h
    rcases exec_next h with ⟨-, -, rfl⟩ | ⟨-, -, -, h⟩ | ⟨w, env, -, hw, hr, henv, rfl⟩ |
      ⟨sel, v, env, -, hs, hr, henv, rfl⟩
    · exact refl _
    · exact trans _ _ _ (hrsp s) (runActions_induction trans hact hdone hseq _ _ _ _ h)
    · exact hact (.write w) _ _ (.inl (act_write hr hw henv))
    · exact hact (.read sel) _ _ (.inl (act_read hr hs henv))
  rcases step_next h with ⟨-, -, rfl⟩ | ⟨-, -, -, rfl⟩ | ⟨k, rest, i, -, -, -, -, h⟩ | ⟨op, w, rest, i, -, -, -, h⟩ |
    ⟨op, sel, rest, i, -, -, -, h⟩ | ⟨op, todo, -, -, -, -, h⟩
  · exact trans _ _ _ (hrsp s) (hreset _)
  · exact hrsp s
  · exact trans _ _ _ (hrsp s) (trans _ _ _ (hhost _ rest) (hexec _ _ _ h))
  · exact trans _ _ _ (hrsp s) (trans _ _ _ (hseq _ _) (hexec _ _ _ h))
  · exact trans _ _ _ (hrsp s) (trans _ _ _ (hseq _ _) (hexec _ _ _ h))
  · refine trans _ _ _ (hrsp s) ?_
    rcases runOneAction_next h with ⟨-, rfl⟩ | ⟨a, rest, u, -, e, rfl⟩ | ⟨a, rest, a', u, -, e, rfl⟩ | ⟨a, rest, -, e⟩
    · exact hdone _
    · exact trans _ _ _ (hact a _ _ (.inl e)) (hseq _ _)
    · exact trans _ _ _ (hact a _ _ (.inr (.inl ⟨a', e⟩))) (hseq _ _)
    · exact hact a _ _ (.inr (.inr e))

end Sys2Proof.Machine
end

