-- ==== Sys2Proof/Tests/Slice0.lean ====
section
/-! SUPPORT. Tests. Every expected value is the spec's: the encodings of 30_encoding.md and the vectors of
95_test_vectors.md, named beside each test. At the end, for every statement with hypotheses, a state and operands that
meet them all. -/

namespace Sys2Proof.Tests

open Sys2Proof.Machine

/-! Helpers: small states, and what is looked at in an answer. -/

/-- Ready, at rest, the oracle answering these bytes. -/
def ready (answers : List Nat) : State :=
  { State.reset with phase := .ready, env := .oracle { script := answers, count := 0 } }

/-- The reference chip of program P5 at the cell `a`: not busy, counter in DDRAM, counting up, busy once after each
instruction. -/
def chipAt (a : BitVec 7) : Chip :=
  { busy := 0, ac := a, sel := .ddram, increment := true, shiftOnWrite := false, displayOn := true, cursorOn := true,
    blinkOn := false, eightBit := true, twoLines := true, bigFont := false, ddram := [], cgram := [], shift := 0,
    refusing := false, draws := { script := [1, 1, 1], count := 0 } }

/-- Ready, with that chip. -/
def withChip (c : Chip) : State := { ready [] with env := .reference c }

/-- Ready, standing at these positions of an operation. -/
def running (op : Instr) (todo : List Action) (answers : List Nat) : State :=
  { ready answers with seq := .running op todo }

/-- A command with no arguments. -/
def plain (op : BitVec 5) : Command := { op := op, a := 0#8, b := 0#8, c := 0#8, n := 0, stream := [] }

/-- A property of the next state of an answer; false of a refusal. -/
def Next (a : Answer) (p : State → Bool) : Bool :=
  match a with
  | .next t => p t
  | .fault _ => false
  | .refused _ => false

/-- The transaction-level trace of the next state. -/
def Traced (a : Answer) (ts : List BusTransaction) : Bool := Next a fun t => t.transactions = ts

/-- The same, and one result. -/
def Answered (a : Answer) (ts : List BusTransaction) (r : Result) : Bool :=
  Next a fun t => t.transactions = ts ∧ t.results = [r] ∧ t.seq = .idle

/-! WellFormed: its one check refuses an ill-formed term. -/

theorem test_wellFormed_refuses_short_string : (Instr.writeString 2 [0x41#8]).wellFormed = false := by decide
theorem test_wellFormed_refuses_long_string : (Instr.writeString 0 [0x41#8]).wellFormed = false := by decide
theorem test_wellFormed_string : (Instr.writeString 2 [0x4F#8, 0x4B#8]).wellFormed = true := by decide

/-! Decoding: each constructor's word written out from 30_encoding.md. -/

/-- R84 to R92, V-E8. -/
theorem test_decode_words :
    decode (.word 0b0000000001#10) = .ok .wClear ∧ decode (.word 0b0000000010#10) = .ok .wHome ∧
    decode (.word 0b0000000110#10) = .ok (.wEntry true false) ∧
    decode (.word 0b0000000101#10) = .ok (.wEntry false true) ∧
    decode (.word 0b0000001110#10) = .ok (.wDispctl true true false) ∧
    decode (.word 0b0000001001#10) = .ok (.wDispctl false false true) ∧
    decode (.word 0b0000010100#10) = .ok (.wShift false true) ∧
    decode (.word 0b0000011000#10) = .ok (.wShift true false) ∧
    decode (.word 0b0000111000#10) = .ok (.wFuncset true true false) ∧
    decode (.word 0b0000100100#10) = .ok (.wFuncset false false true) ∧
    decode (.word 0b0001001000#10) = .ok (.wSetcg 0x08#6) ∧ decode (.word 0b0011000100#10) = .ok (.wSetdd 0x44#7) ∧
    decode (.word 0b1001000001#10) = .ok (.wData 0x41#8) := by
  decide

/-- R97: the five kinds of values no constructor builds, at the ends of each kind. -/
theorem test_decode_refuses_words :
    ([0x000, 0x003, 0x011, 0x013, 0x015, 0x017, 0x019, 0x01B, 0x01D, 0x01F, 0x021, 0x03F, 0x100, 0x1FF, 0x300,
      0x3FF].all fun n => decide (decode (.word (BitVec.ofNat 10 n)) = .error (.notAnInstructionWord (BitVec.ofNat 10 n))))
      = true := by
  decide

/-- R99. -/
theorem test_decode_selectors :
    decode (.selector 0b01#2) = .ok .statusRead ∧ decode (.selector 0b11#2) = .ok .dataRead ∧
    decode (.selector 0b00#2) = .error (.notAReadSelector 0b00#2) ∧
    decode (.selector 0b10#2) = .error (.notAReadSelector 0b10#2) := by
  decide

/-- R100, the codes with no argument or with scalar arguments on distinct values. -/
theorem test_decode_commands :
    decode (command 0#5 1#8 2#8 3#8) = .ok .clear ∧ decode (command 1#5 1#8 2#8 3#8) = .ok .returnHome ∧
    decode (command 2#5 1#8 2#8 3#8) = .ok (.entryModeSet 1#8 2#8) ∧
    decode (command 3#5 1#8 2#8 3#8) = .ok (.displayControl 1#8 2#8 3#8) ∧
    decode (command 4#5 1#8 2#8 3#8) = .ok (.shiftCursor 1#8) ∧
    decode (command 5#5 1#8 2#8 3#8) = .ok (.moveCursor 1#8 2#8) ∧
    decode (command 6#5 1#8 2#8 3#8) = .ok .getCurrentLine ∧
    decode (command 7#5 1#8 2#8 3#8) = .ok (.shiftDisplay 1#8) ∧
    decode (command 10#5 1#8 2#8 3#8) = .ok (.functionSet 1#8 2#8 3#8) ∧
    decode (command 11#5 1#8 2#8 3#8) = .ok (.writeByte 1#8) ∧
    decode (command 12#5 1#8 2#8 3#8) = .ok (.writeCharacter 1#8) ∧
    decode (command 14#5 1#8 2#8 3#8) = .ok (.setCGRAMAddress 1#8) ∧
    decode (command 15#5 1#8 2#8 3#8) = .ok (.setDDRAMAddress 1#8) ∧
    decode (command 16#5 1#8 2#8 3#8) = .ok .isBusy ∧
    decode (command 17#5 1#8 2#8 3#8) = .ok .readAddressCounter ∧
    decode (command 18#5 1#8 2#8 3#8) = .ok .readByte ∧
    decode (command 19#5 1#8 2#8 3#8) = .ok .initializeDisplay := by
  decide

/-- R100, the counted codes, and the reserved ones at their ends. -/
theorem test_decode_counted_and_reserved :
    decode (countedCommand 8#5 3 []) = .ok (.shiftDisplayRight 3) ∧
    decode (countedCommand 9#5 2 []) = .ok (.shiftDisplayLeft 2) ∧
    decode (countedCommand 13#5 2 [0x4F#8, 0x4B#8, 0x21#8]) = .ok (.writeString 2 [0x4F#8, 0x4B#8]) ∧
    decode (command 20#5 0#8 0#8 0#8) = .error (.reservedOperation 20#5) ∧
    decode (command 31#5 0#8 0#8 0#8) = .error (.reservedOperation 31#5) := by
  decide

/-- The opcode table's numbers. -/
theorem test_decode_table_words :
    decodeTableWord 16 0x038 = some (.wFuncset true true false) ∧ decodeTableWord 16 0x039 = none ∧
    decodeTableWord 8 0x13 = some .initializeDisplay ∧ decodeTableWord 8 0x14 = none ∧
    decodeTableWord 2 1 = some .statusRead ∧ decodeTableWord 2 3 = some .dataRead := by
  decide

/-! The transactions. -/

/-- V-T1. -/
theorem test_write_transaction_events :
    Next (writeTransaction 0x241#10 (ready [])) (fun t =>
      t.trace = [.line .rs true, .line .rw false, .line (.data 7) false, .line (.data 6) true, .line (.data 5) false,
        .line (.data 4) false, .line (.data 3) false, .line (.data 2) false, .line (.data 1) false,
        .line (.data 0) true, .delay .setup, .line .enable true, .delay .pulse, .line .enable false, .delay .hold] ∧
      t.rs = true ∧ t.rw = false ∧ t.dbOut = 0x41#8 ∧ t.e = false ∧ t.ddir = .outward) = true := by
  decide

/-- V-T3. -/
theorem test_read_transaction_events :
    Next (readTransaction false true { ready [0xFF] with dbOut := 0xC4#8 }) (fun t =>
      t.trace = [.line .rs false, .line .rw true, .dir .inward, .delay .setup, .line .enable true, .delay .dataValid,
        .sample 0xFF#8, .line .enable false, .delay .hold, .dir .outward] ∧
      t.sampled = 0xFF#8 ∧ t.rs = false ∧ t.rw = true ∧ t.dbOut = 0xC4#8 ∧ t.e = false ∧ t.ddir = .outward) = true := by
  decide

/-- V-T5. -/
theorem test_transactions_refuse :
    writeTransaction 0x141#10 (ready []) = .refused .writeWithRwSet ∧
    readTransaction false false (ready [0]) = .refused .readWithRwClear := by
  exact ⟨rfl, rfl⟩

/-! The instruction words and the selectors, one step each: the words of R84 to R92, the selectors of R99. -/

theorem test_wClear : Traced (exec .wClear (ready [])) [.write 0x001#10] = true := by decide
theorem test_wHome : Traced (exec .wHome (ready [])) [.write 0x002#10] = true := by decide
theorem test_wEntry : Traced (exec (.wEntry true false) (ready [])) [.write 0x006#10] = true := by decide
theorem test_wDispctl : Traced (exec (.wDispctl true false true) (ready [])) [.write 0x00D#10] = true := by decide
theorem test_wShift : Traced (exec (.wShift false true) (ready [])) [.write 0x014#10] = true := by decide
theorem test_wFuncset : Traced (exec (.wFuncset true false true) (ready [])) [.write 0x034#10] = true := by decide
theorem test_wSetcg : Traced (exec (.wSetcg 0x3F#6) (ready [])) [.write 0x07F#10] = true := by decide
theorem test_wSetdd : Traced (exec (.wSetdd 0x67#7) (ready [])) [.write 0x0E7#10] = true := by decide
theorem test_wData : Traced (exec (.wData 0x80#8) (ready [])) [.write 0x280#10] = true := by decide
theorem test_statusRead :
    Next (exec .statusRead (ready [0x85])) (fun t => t.transactions = [.read false true 0x85#8] ∧ t.sampled = 0x85#8)
      = true := by decide
theorem test_dataRead :
    Next (exec .dataRead (ready [0x41])) (fun t => t.transactions = [.read true true 0x41#8] ∧ t.sampled = 0x41#8)
      = true := by decide

/-! The operations. -/

/-- V-E7. -/
theorem test_clear :
    Answered (exec .clear (ready [0x00])) [.read false true 0x00#8, .write 0x001#10] .nothing = true := by decide
/-- V-E7. -/
theorem test_returnHome :
    Answered (exec .returnHome (ready [0x7F])) [.read false true 0x7F#8, .write 0x002#10] .nothing = true := by decide
/-- V-E1. -/
theorem test_entryModeSet :
    Answered (exec (.entryModeSet 2#8 0#8) (ready [0])) [.read false true 0#8, .write 0x006#10] .nothing = true := by
  decide
/-- V-E1. -/
theorem test_entryModeSet_shift :
    Answered (exec (.entryModeSet 0#8 255#8) (ready [0])) [.read false true 0#8, .write 0x005#10] .nothing = true := by
  decide
/-- V-E2. -/
theorem test_displayControl :
    Answered (exec (.displayControl 128#8 0#8 3#8) (ready [0])) [.read false true 0#8, .write 0x00D#10] .nothing
      = true := by decide
/-- V-E3. -/
theorem test_shiftCursor :
    Answered (exec (.shiftCursor 7#8) (ready [0])) [.read false true 0#8, .write 0x014#10] .nothing = true := by decide
/-- V-E3. -/
theorem test_shiftDisplay :
    Answered (exec (.shiftDisplay 200#8) (ready [0])) [.read false true 0#8, .write 0x01C#10] .nothing = true := by
  decide
/-- V-E4. -/
theorem test_functionSet :
    Answered (exec (.functionSet 4#8 1#8 10#8) (ready [0])) [.read false true 0#8, .write 0x03C#10] .nothing
      = true := by decide
/-- V-E4. -/
theorem test_functionSet_font :
    Answered (exec (.functionSet 0#8 0#8 1#8) (ready [0])) [.read false true 0#8, .write 0x024#10] .nothing = true := by
  decide
/-- V-E5. -/
theorem test_setCGRAMAddress :
    Answered (exec (.setCGRAMAddress 0xC5#8) (ready [0])) [.read false true 0#8, .write 0x045#10] .nothing = true := by
  decide
/-- V-E6. -/
theorem test_setDDRAMAddress :
    Answered (exec (.setDDRAMAddress 0xE7#8) (ready [0])) [.read false true 0#8, .write 0x0E7#10] .nothing = true := by
  decide
/-- V-E7. -/
theorem test_writeByte :
    Answered (exec (.writeByte 0x80#8) (ready [0])) [.read false true 0#8, .write 0x280#10] .nothing = true := by decide
/-- V-D1. -/
theorem test_writeCharacter :
    Answered (exec (.writeCharacter 0x41#8) (ready [0])) [.read false true 0#8, .write 0x241#10] .nothing = true := by
  decide
/-- V-A4. -/
theorem test_moveCursor :
    Answered (exec (.moveCursor 2#8 5#8) (ready [0])) [.read false true 0#8, .write 0x0C4#10] .nothing = true := by
  decide
/-- V-A4. -/
theorem test_moveCursor_clamps :
    Answered (exec (.moveCursor 3#8 41#8) (ready [0])) [.read false true 0#8, .write 0x0E7#10] .nothing = true := by
  decide
/-- V-B3. -/
theorem test_isBusy : Answered (exec .isBusy (ready [0xC4])) [.read false true 0xC4#8] (.busy true) = true := by decide
/-- V-B3. -/
theorem test_isBusy_not : Answered (exec .isBusy (ready [0x7F])) [.read false true 0x7F#8] (.busy false) = true := by
  decide
/-- V-A5. -/
theorem test_readAddressCounter :
    Answered (exec .readAddressCounter (ready [0x05, 0xC5]))
      [.read false true 0x05#8, .delay .addressSettle, .read false true 0xC5#8] (.address 0x45#7) = true := by
  decide
/-- V-A5. -/
theorem test_getCurrentLine :
    Answered (exec .getCurrentLine (ready [0x00, 0xE7]))
      [.read false true 0x00#8, .delay .addressSettle, .read false true 0xE7#8] (.line .line2) = true := by
  decide
/-- V-A5. -/
theorem test_getCurrentLine_unknown :
    Answered (exec .getCurrentLine (ready [0x00, 0x30]))
      [.read false true 0x00#8, .delay .addressSettle, .read false true 0x30#8] (.line .unknown) = true := by
  decide
/-- V-A6. -/
theorem test_shiftDisplayRight :
    Answered (exec (.shiftDisplayRight 2) (ready [0, 0]))
      [.read false true 0#8, .write 0x01C#10, .read false true 0#8, .write 0x01C#10] .nothing = true := by decide
/-- V-A6: no transaction at all. -/
theorem test_shiftDisplayRight_none : Answered (exec (.shiftDisplayRight 0) (ready [])) [] .nothing = true := by decide
/-- V-A6. -/
theorem test_shiftDisplayLeft :
    Answered (exec (.shiftDisplayLeft 1) (ready [0])) [.read false true 0#8, .write 0x018#10] .nothing = true := by
  decide
/-- V-D1: "Hi". -/
theorem test_writeString :
    Next (exec (.writeString 2 [0x48#8, 0x69#8]) (ready [0, 0])) (fun t =>
      t.transactions = [.read false true 0#8, .write 0x248#10, .read false true 0#8, .write 0x269#10] ∧
      t.strPops = 2) = true := by decide
/-- V-D2. -/
theorem test_readByte :
    Answered (exec .readByte (ready [0x00, 0xFF])) [.read false true 0x00#8, .read true true 0xFF#8] (.byte 0xFF#8)
      = true := by decide
set_option maxRecDepth 4000 in
/-- V-I1. -/
theorem test_initialize :
    Next (exec .initializeDisplay { State.reset with env := .oracle { script := [0, 0, 0, 0], count := 0 } }) (fun t =>
      t.transactions = [.delay .startup, .timingEnable, .read false true 0#8, .write 0x038#10, .read false true 0#8,
        .write 0x00E#10, .read false true 0#8, .write 0x006#10, .read false true 0#8, .write 0x001#10] ∧
      t.phase = .ready ∧ t.dbOut = 0x01#8 ∧ t.timingEnabled = true) = true := by
  decide
/-- V-I2. -/
theorem test_writeByte_refused_at_powerOn :
    exec (.writeByte 0x41#8) State.reset = .refused (.notReady .powerOn) := rfl

/-! Polls. -/

/-- V-T6 and V-B1: a busy poll leaves the operation where it stood. -/
theorem test_busy_poll_waits :
    Next (exec (.writeByte 0x41#8) (ready [0x80, 0x00])) (fun t =>
      t.transactions = [.read false true 0x80#8] ∧
      t.seq = .running (.writeByte 0x41#8) [.awaitReady 0, .write 0x241#10, .respond .nothing]) = true := by
  decide
/-- V-B1: the third busy poll of MAX_POLLS = 3. -/
theorem test_bounded_poll_raises :
    Next (step { running .clear [.awaitReady 2, .write 0x001#10, .respond .nothing] [0x80] with
        params := { Params.default with maxPolls := some 3 } }) (fun t =>
      t.hwFault = true ∧ t.seq = .idle ∧ t.rsp = some 0x00#8 ∧ t.transactions = [.read false true 0x80#8]) = true := by
  decide
/-- R231. -/
theorem test_reset_refused_while_running :
    step { running .clear [.respond .nothing] [] with rst := true } = .refused .resetWhileRunning := rfl

/-! The mapper, the waits, the reference chip. -/

/-- V-A1, V-A2. -/
theorem test_toDDRAMAddress :
    toDDRAMAddress 0#8 0#8 = 0x00#7 ∧ toDDRAMAddress 1#8 41#8 = 0x27#7 ∧ toDDRAMAddress 2#8 1#8 = 0x40#7 ∧
    toDDRAMAddress 3#8 40#8 = 0x67#7 ∧ toDDRAMAddress 2#8 17#8 = 0x50#7 ∧ toDDRAMAddress 255#8 255#8 = 0x67#7 := by
  decide
/-- V-A3. -/
theorem test_classifyAddress :
    classifyAddress 0x27#8 = .line1 ∧ classifyAddress 0x28#8 = .unknown ∧ classifyAddress 0x3F#8 = .unknown ∧
    classifyAddress 0x40#8 = .line2 ∧ classifyAddress 0x67#8 = .line2 ∧ classifyAddress 0x68#8 = .unknown ∧
    classifyAddress 0x80#8 = .unknown ∧ classifyAddress 0xFF#8 = .unknown := by
  decide
/-- R114. -/
theorem test_asked : Wait.asked Params.default .dataValid = 1000 ∧ Wait.asked Params.default .addressSettle = 4000 := by
  decide
/-- P5: the write, and the counter moved. -/
theorem test_chip_takes_a_byte :
    Next (exec (.writeByte 0x5A#8) (withChip (chipAt 0x00#7))) (fun t =>
      match t.env with
      | .reference c => c.ddram = [(0x00, 0x5A#8)] ∧ c.ac = 0x01#7 ∧ c.busy = 1
      | .oracle _ => False) = true := by
  decide
/-- R74: the wrap from line 1 to line 2, and the cell read back. -/
theorem test_chip_reads_a_byte :
    Next (exec .readByte (withChip { chipAt 0x27#7 with ddram := [(0x27, 0x5A#8)] })) (fun t =>
      decide (t.results = [.byte 0x5A#8]) &&
      match t.env with
      | .reference c => c.ac = 0x40#7
      | .oracle _ => false) = true := by
  decide
/-- R74: cursor shift wraps, display shift leaves the counter, and CGRAM counts modulo 64. -/
theorem test_chip_shifts_and_counts :
    Next (exec (.wShift false false) (withChip (chipAt 0x00#7))) (fun t =>
      match t.env with
      | .reference c => c.ac = 0x67#7 ∧ c.shift = 0
      | .oracle _ => False) = true ∧
    Next (exec (.wShift true false) (withChip (chipAt 0x00#7))) (fun t =>
      match t.env with
      | .reference c => c.ac = 0x00#7 ∧ c.shift = -1
      | .oracle _ => False) = true ∧
    Next (exec (.wData 0x1F#8) (withChip { chipAt 0x3F#7 with sel := .cgram })) (fun t =>
      match t.env with
      | .reference c => c.ac = 0x00#7 ∧ c.cgram = [(63, 0x1F#8)]
      | .oracle _ => False) = true := by
  decide
/-- R52, R74: a gap. -/
theorem test_chip_refuses_a_gap : exec (.writeByte 0x5A#8) (withChip (chipAt 0x28#7)) = .refused .chipGap := rfl

/-! What a placed instruction does as the first step after reset. -/

theorem test_first_step_runs_a_word :
    Traced (step (State.reset.withFetchWord 16 0x038)) [.write 0x038#10] = true := by decide
theorem test_first_step_runs_a_command :
    Answered (step (State.reset.withFetchWord 8 0x00)) [.read false true 0#8, .write 0x001#10] .nothing = true := by
  decide

/-! Witnesses: for each statement with hypotheses, a state and operands that meet them all together; for a statement
with several clauses, one for each clause. -/

theorem ready_accepts (answers : List Nat) : (ready answers).Accepts := ⟨rfl, rfl, rfl⟩

/-- ResetPinPutsTheBlockInItsResetState, ResetAdmittedOnlyWhenIdle (first clause). -/
theorem test_witness_reset_idle : { ready [] with rst := true }.rst = true ∧ { ready [] with rst := true }.seq = .idle :=
  ⟨rfl, rfl⟩
/-- ResetAdmittedOnlyWhenIdle (second clause). -/
theorem test_witness_reset_running :
    ∃ s : State, s.rst = true ∧ s.seq = .running .clear [.respond .nothing] :=
  ⟨{ running .clear [.respond .nothing] [] with rst := true }, rfl, rfl⟩
/-- IdleBlockWaitsForAnOperation. -/
theorem test_witness_idle : State.reset.rst = false ∧ State.reset.seq = .idle ∧ State.reset.host = [] := ⟨rfl, rfl, rfl⟩
/-- StepRunsThePresentedOperation. -/
theorem test_witness_presented :
    ∃ s : State, s.rst = false ∧ s.seq = .idle ∧ s.host = [plain 19#5] ∧
      decode (.command (plain 19#5)) = .ok .initializeDisplay :=
  ⟨{ State.reset with host := [plain 19#5] }, rfl, rfl, rfl, rfl⟩
/-- StepRunsTheSequencersTransaction, both clauses. -/
theorem test_witness_transaction :
    (∃ s : State, s.rst = false ∧ s.seq = .running .clear [.write 0x001#10, .respond .nothing] ∧
      decode (.word 0x001#10) = .ok .wClear) ∧
    ∃ s : State, s.rst = false ∧ s.seq = .running .isBusy [.read 0b01#2, .respond .busy] ∧
      decode (.selector 0b01#2) = .ok .statusRead :=
  ⟨⟨running .clear [.write 0x001#10, .respond .nothing] [], rfl, rfl, rfl⟩,
    ⟨running .isBusy [.read 0b01#2, .respond .busy] [0], rfl, rfl, rfl⟩⟩
/-- OperationCodes: a command with each code below 20, and the reserved codes at both ends. -/
theorem test_witness_codes :
    (∀ op : BitVec 5, ∃ k : Command, k.op = op) ∧
    (∃ s : State, s.rst = false ∧ s.seq = .idle ∧ s.host = [plain 20#5] ∧ 20 ≤ (plain 20#5).op.toNat) ∧
    ∃ s : State, s.rst = false ∧ s.seq = .idle ∧ s.host = [plain 31#5] ∧ 20 ≤ (plain 31#5).op.toNat :=
  ⟨fun op => ⟨plain op, rfl⟩, ⟨{ ready [] with host := [plain 20#5] }, rfl, rfl, rfl, by decide⟩,
    ⟨{ ready [] with host := [plain 31#5] }, rfl, rfl, rfl, by decide⟩⟩
/-- DecodeOfEncodeIsTheInstruction. -/
theorem test_witness_encode : (Instr.moveCursor 255#8 0#8).wellFormed = true := rfl
/-- AcceptedEncodingsAreExact, both clauses. -/
theorem test_witness_accepted :
    decode (.word 0x2FF#10) = .ok (.wData 0xFF#8) ∧ decode (.selector 0b11#2) = .ok .dataRead := by decide
/-- WriteTransactionDrivesTheWord. -/
theorem test_witness_write :
    (0x241#10)[8] = false ∧ (ready []).e = false ∧ (ready []).ddir = .outward ∧
      (ready []).env.write 0x241#10 = .ok (ready []).env :=
  ⟨rfl, rfl, rfl, rfl⟩
/-- ReadTransactionSamplesOnce, for both selectors; ReadSelectorsReadTheBus, both clauses. -/
theorem test_witness_read :
    (ready [0xFF]).atRest = true ∧ (ready [0xFF]).e = false ∧ (ready [0xFF]).ddir = .outward ∧
      (ready [0xFF]).env.read false = .ok (0xFF#8, (ready []).env) ∧
      (ready [0xFF]).env.read true = .ok (0xFF#8, (ready []).env) :=
  ⟨rfl, rfl, rfl, rfl, rfl⟩
/-- TransactionsRefuseOtherUses: each clause. -/
theorem test_witness_refused_uses :
    (0x100#10)[8] = true ∧ (0x041#10)[8] = false ∧ { ready [] with e := true }.e = true ∧
      { ready [] with ddir := .inward }.ddir = .inward :=
  ⟨rfl, rfl, rfl, rfl⟩
/-- InstructionWordsGoOnTheBus: the bus at rest, and the environment takes every word. -/
theorem test_witness_words : (ready []).atRest = true ∧ ∀ w, (ready []).env.write w = .ok (ready []).env :=
  ⟨rfl, fun _ => rfl⟩
/-- The same with the reference chip, for a data word at the ends of both lines. -/
theorem test_witness_words_chip :
    ([0x00#7, 0x27#7, 0x40#7, 0x67#7].all fun a =>
      match (withChip (chipAt a)).env.write 0x25A#10 with
      | .ok _ => true
      | .error _ => false) = true := by
  decide
/-- The write operations (SendsOneWord), ready at the first poll; IsBusyAnswersTheBusyFlag. -/
theorem test_witness_sends :
    (ready [0x7F]).Accepts ∧ (ready [0x7F]).env.AnswersReady 0x7F#8 (ready []).env ∧
      ∀ w, (ready []).env.write w = .ok (ready []).env :=
  ⟨ready_accepts _, ⟨rfl, rfl⟩, fun _ => rfl⟩
/-- The write operations, after two busy polls; WriteOperationsCompleteAfterTheChipIsReady. -/
theorem test_witness_sends_after_busy :
    ∃ s : State, s.Accepts ∧ s.rst = false ∧ s.params.maxPolls = none ∧ s.host = [plain 0#5] ∧
      decode (.command (plain 0#5)) = .ok .clear ∧
      program s.strPops .clear = [.awaitReady 0, .write 0x001#10, .respond .nothing] ∧
      Env.BusyFor [0x80#8, 0xFF#8] s.env (ready [0x27]).env ∧
      (ready [0x27]).env.AnswersReady 0x27#8 (ready []).env ∧ (ready []).env.write 0x001#10 = .ok (ready []).env :=
  ⟨{ ready [0x80, 0xFF, 0x27] with host := [plain 0#5] }, ⟨rfl, rfl, rfl⟩, rfl, rfl, rfl, rfl, rfl,
    ⟨(ready [0xFF, 0x27]).env, ⟨rfl, rfl⟩, (ready [0x27]).env, ⟨rfl, rfl⟩, rfl⟩, ⟨rfl, rfl⟩, rfl⟩
/-- RefusedOutsideReady, and OnlyInitializeOutsideReady (first clause), at reset. -/
theorem test_witness_not_ready :
    Instr.readByte.isOperation = true ∧ Instr.readByte ≠ .initializeDisplay ∧ State.reset.seq = .idle ∧
      State.reset.phase ≠ .ready := by
  decide
/-- ReadAddressCounterAnswersTheCounter, GetCurrentLineClassifiesTheCounter, ReadByteAnswersTheDataRead: at once, and
after a busy poll. -/
theorem test_witness_read_operations :
    (ready [0x00, 0x30]).Accepts ∧ (ready [0x00, 0x30]).env.AnswersReady 0x00#8 (ready [0x30]).env ∧
      (ready [0x30]).env.read false = .ok (0x30#8, (ready []).env) ∧
      (ready [0x30]).env.read true = .ok (0x30#8, (ready []).env) ∧
      (ready [0x80, 0x00, 0x30]).Accepts ∧ (ready [0x80, 0x00, 0x30]).rst = false ∧
      (ready [0x80, 0x00, 0x30]).params.maxPolls = none ∧
      Env.BusyFor [0x80#8] (ready [0x80, 0x00, 0x30]).env (ready [0x00, 0x30]).env :=
  ⟨ready_accepts _, ⟨rfl, rfl⟩, rfl, rfl, ready_accepts _, rfl, rfl, ⟨_, ⟨rfl, rfl⟩, rfl⟩⟩
/-- RepeatedShiftsSendNWords: n = 0 and n = 2 for each direction, at once and after busy polls. -/
theorem test_witness_shifts :
    Env.Sends (([] : List Byte).map fun v => (v, 0x01C#10)) (ready []).env (ready []).env ∧
      (∀ w, Env.Sends ([0x00#8, 0x01#8].map fun v => (v, w)) (ready [0, 1]).env (ready []).env) ∧
      ∀ w, Env.SendsAfter ([([], 0x00#8), ([0x80#8], 0x00#8)].map fun g => (g.1, g.2, w)) (ready [0, 0x80, 0]).env
        (ready []).env :=
  ⟨rfl, fun _ => ⟨_, _, ⟨rfl, rfl⟩, rfl, _, _, ⟨rfl, rfl⟩, rfl, rfl⟩,
    fun _ => ⟨_, _, _, rfl, ⟨rfl, rfl⟩, rfl, _, _, _, ⟨_, ⟨rfl, rfl⟩, rfl⟩, ⟨rfl, rfl⟩, rfl, rfl⟩⟩
/-- WriteStringSendsEveryByte, both clauses: the empty string; "OK" as program P1 sends it; and a string of which the
host presents only the first of its two bytes, whatever the other is. -/
theorem test_witness_string :
    ([] : List (Byte × Byte)).map (fun x => x.2) = (List.range 0).map (stringByte [0x4F#8] 0) ∧
      Env.Sends (([] : List (Byte × Byte)).map fun x => (x.1, BitVec.ofNat 10 (0x200 + x.2.toNat))) (ready []).env
        (ready []).env ∧
      [0x4F#8, 0x4B#8] = (List.range 2).map (stringByte [0x4F#8, 0x4B#8] 0) ∧
      [0x4F#8, Config.freeStringByte 1] = (List.range 2).map (stringByte [0x4F#8] 0) ∧
      (∀ u v : Byte,
        Env.Sends ([(0x00#8, u), (0x01#8, v)].map fun x => (x.1, BitVec.ofNat 10 (0x200 + x.2.toNat)))
          (ready [0x00, 0x01]).env (ready []).env) ∧
      ∀ u v : Byte,
        Env.SendsAfter
          ([([], 0x00#8, u), ([0x81#8], 0x01#8, v)].map fun x =>
            (x.1, x.2.1, BitVec.ofNat 10 (0x200 + x.2.2.toNat)))
          (ready [0x00, 0x81, 0x01]).env (ready []).env :=
  ⟨rfl, rfl, rfl, rfl, fun _ _ => ⟨_, _, ⟨rfl, show busyFlag 0x00#8 = false from rfl⟩, rfl, _, _,
      ⟨rfl, show busyFlag 0x01#8 = false from rfl⟩, rfl, rfl⟩,
    fun _ _ => ⟨_, _, _, rfl, ⟨rfl, show busyFlag 0x00#8 = false from rfl⟩, rfl, _, _, _, ⟨_, ⟨rfl, rfl⟩, rfl⟩,
      ⟨rfl, show busyFlag 0x01#8 = false from rfl⟩, rfl, rfl⟩⟩
/-- InitializeEndsReady, both clauses: from reset with the answers of V-I1, and of P1. -/
theorem test_witness_initialize :
    State.reset.seq = .idle ∧ State.reset.atRest = true ∧ State.reset.rst = false ∧
      State.reset.params.maxPolls = none ∧
      Env.Sends [(0x00#8, 0x038#10), (0x00#8, 0x00E#10), (0x00#8, 0x006#10), (0x00#8, 0x001#10)]
        (ready [0, 0, 0, 0]).env (ready []).env ∧
      Env.SendsAfter [([], 0x00#8, 0x038#10), ([0x80#8], 0x00#8, 0x00E#10), ([], 0x00#8, 0x006#10),
        ([], 0x00#8, 0x001#10)] (ready [0, 0x80, 0, 0, 0]).env (ready []).env :=
  ⟨rfl, rfl, rfl, rfl,
    ⟨_, _, ⟨rfl, rfl⟩, rfl, _, _, ⟨rfl, rfl⟩, rfl, _, _, ⟨rfl, rfl⟩, rfl, _, _, ⟨rfl, rfl⟩, rfl, rfl⟩,
    ⟨_, _, _, rfl, ⟨rfl, rfl⟩, rfl, _, _, _, ⟨_, ⟨rfl, rfl⟩, rfl⟩, ⟨rfl, rfl⟩, rfl, _, _, _, rfl, ⟨rfl, rfl⟩, rfl,
      _, _, _, rfl, ⟨rfl, rfl⟩, rfl, rfl⟩⟩
/-- InitializeWaitsBeforeTheBus: initialize answers a next state from an idle block; InstructionsLeaveTheRestAlone. -/
theorem test_witness_initialize_next :
    { ready [0x80] with phase := .powerOn }.seq = .idle ∧
      ∃ t, exec .initializeDisplay { ready [0x80] with phase := .powerOn } = .next t :=
  ⟨rfl, _, rfl⟩
/-- NothingAcceptedWhileRunning, and the statements about a step that answers a next state (OneResponsePerCompletion,
HardwareFaultIsSticky). -/
theorem test_witness_running :
    (running .clear [.awaitReady 0, .write 0x001#10, .respond .nothing] [0]).seq =
        .running .clear [.awaitReady 0, .write 0x001#10, .respond .nothing] ∧
      Instr.readByte.isOperation = true ∧
      ∃ t, step (running .clear [.awaitReady 0, .write 0x001#10, .respond .nothing] [0]) = .next t :=
  ⟨rfl, rfl, _, rfl⟩
/-- BusyChipHoldsTheOperation. -/
theorem test_witness_busy :
    (ready [0x80]).Accepts ∧ Instr.clear.isOperation = true ∧
      program (ready [0x80]).strPops .clear = .awaitReady 0 :: [.write 0x001#10, .respond .nothing] ∧
      (ready [0x80]).params.maxPolls = none ∧ (ready [0x80]).env.AnswersBusy 0x80#8 (ready []).env :=
  ⟨ready_accepts _, rfl, rfl, rfl, rfl, rfl⟩
/-- AwaitReadyEndsAtTheFirstReadyPoll: no busy poll, and two; AwaitReadyEndsIffChipEventuallyReady. -/
theorem test_witness_await :
    ∃ s : State, s.rst = false ∧ s.rsp = none ∧ s.atRest = true ∧ s.params.maxPolls = none ∧
      s.seq = .running .clear (.awaitReady 0 :: [.write 0x001#10, .respond .nothing]) ∧
      Env.BusyFor [] s.env s.env ∧ Env.BusyFor [0x80#8, 0xFF#8] s.env (ready [0x27]).env ∧
      (ready [0x27]).env.AnswersReady 0x27#8 (ready []).env ∧ s.env.EventuallyReady :=
  ⟨running .clear [.awaitReady 0, .write 0x001#10, .respond .nothing] [0x80, 0xFF, 0x27], rfl, rfl, rfl, rfl, rfl, rfl,
    ⟨_, ⟨rfl, rfl⟩, _, ⟨rfl, rfl⟩, rfl⟩, ⟨rfl, rfl⟩,
    [0x80#8, 0xFF#8], 0x27#8, (ready [0x27]).env, (ready []).env, ⟨_, ⟨rfl, rfl⟩, _, ⟨rfl, rfl⟩, rfl⟩, rfl, rfl⟩
/-- BoundedPollingRaisesHardwareUnresponsive: MAX_POLLS = 3, ready at the last poll, and never. -/
theorem test_witness_bounded :
    (∃ s : State, s.rst = false ∧ s.rsp = none ∧ s.atRest = true ∧ s.params.maxPolls = some 3 ∧
      s.seq = .running .clear (.awaitReady 0 :: [.respond .nothing]) ∧
      Env.BusyFor [0x80#8, 0x80#8] s.env (ready [0x00]).env ∧
      (ready [0x00]).env.AnswersReady 0x00#8 (ready []).env) ∧
    ∃ s : State, s.rst = false ∧ s.rsp = none ∧ s.atRest = true ∧ s.params.maxPolls = some 1 ∧
      s.seq = .running .clear (.awaitReady 0 :: [.respond .nothing]) ∧ Env.BusyFor [0x80#8] s.env (ready []).env :=
  ⟨⟨{ running .clear [.awaitReady 0, .respond .nothing] [0x80, 0x80, 0] with
        params := { Params.default with maxPolls := some 3 } }, rfl, rfl, rfl, rfl, rfl,
      ⟨_, ⟨rfl, rfl⟩, _, ⟨rfl, rfl⟩, rfl⟩, rfl, rfl⟩,
    ⟨{ running .clear [.awaitReady 0, .respond .nothing] [0x80] with
        params := { Params.default with maxPolls := some 1 } }, rfl, rfl, rfl, rfl, rfl, ⟨_, ⟨rfl, rfl⟩, rfl⟩⟩⟩
/-- SmallStepsReachTheMeaning; OperationsEndWithTheReferenceChip with its chip. -/
theorem test_witness_small_steps :
    Instr.readByte.isOperation = true ∧ (withChip (chipAt 0x27#7)).seq = .idle ∧
      (withChip (chipAt 0x27#7)).rst = false ∧ (withChip (chipAt 0x27#7)).phase = .ready ∧
      (withChip (chipAt 0x27#7)).atRest = true ∧ (withChip (chipAt 0x27#7)).params.maxPolls = none ∧
      (withChip (chipAt 0x27#7)).env = .reference (chipAt 0x27#7) :=
  ⟨rfl, rfl, rfl, rfl, rfl, rfl, rfl⟩
/-- OnlyTransactionsTouchTheBus: a wait. -/
theorem test_witness_other_position :
    (act (.delay .addressSettle) (ready [])).leaves ((ready []).delay .addressSettle) ∧
      (∀ p, Action.delay .addressSettle ≠ .awaitReady p) ∧ (∀ w, Action.delay .addressSettle ≠ .write w) ∧
      ∀ sel, Action.delay .addressSettle ≠ .read sel := by
  exact ⟨.inl rfl, by simp, by simp, by simp⟩
/-- The invariants (BusAtRestBetweenSteps, SequencerStaysOnItsProgram, EveryInstructionIsGuarded,
PhaseFollowsInitialization, HardwareFaultIsSticky, ChipMemoryStaysCanonical): a state that meets them all, in the middle
of initialize and after a poll that showed ready, and steps on. -/
theorem test_witness_invariants :
    ∃ s t : State, s.atRest = true ∧ s.OnProgram ∧ s.Guarded ∧ s.PhaseFollows ∧ s.FaultOnlyBounded ∧ s.env.wf ∧
      s.seq = .running .initializeDisplay [.write wordClear, .enterPhase .cleared, .enterPhase .ready,
        .respond .nothing] ∧ step s = .next t := by
  refine ⟨{ ready [] with
      phase := .entryConfigured
      seq := .running .initializeDisplay [.write wordClear, .enterPhase .cleared, .enterPhase .ready, .respond .nothing]
      trace := readEvents Params.default false 0x00#8 }, _, rfl, ⟨rfl, ⟨0, ?_⟩, fun h => absurd rfl h⟩, ⟨by decide, ?_⟩,
    ?_, fun h => (by cases h), trivial, rfl, rfl⟩
  · exact ⟨initializeActions.take 13, rfl⟩
  · intro op a rest _ _
    decide
  · intro todo p hq hp
    cases hq
    cases hp
    rfl
/-- ChipMemoryStaysCanonical, ChipMemoryUnderEachInstruction: a chip with a byte in each memory, the counter at the ends
of the lines, each clause's instruction answering a next state. -/
theorem test_witness_chip :
    (∀ a ∈ [0x00#7, 0x27#7, 0x40#7, 0x67#7],
      { chipAt a with ddram := [(0x00, 0x41#8), (0x67, 0x42#8)], cgram := [(63, 0x1F#8)] }.wf) ∧
    Next (exec (.wData 0x5A#8) (withChip (chipAt 0x67#7))) (fun _ => true) = true ∧
    Next (exec .wClear (withChip (chipAt 0x00#7))) (fun _ => true) = true ∧
    Next (exec .dataRead (withChip (chipAt 0x40#7))) (fun _ => true) = true := by
  refine ⟨?_, by decide, by decide, by decide⟩
  intro a _
  exact ⟨show Memory.wf [(0x00, 0x41#8), (0x67, 0x42#8)] by decide, show Memory.wf [(63, 0x1F#8)] by decide,
    show ∀ p ∈ ([(0x00, 0x41#8), (0x67, 0x42#8)] : Memory), p.1 ≤ 0x27 ∨ (0x40 ≤ p.1 ∧ p.1 ≤ 0x67) by decide,
    show ∀ p ∈ ([(63, 0x1F#8)] : Memory), p.1 < 64 by decide⟩
/-- ChipStateAfterEachInstruction: the counter at the ends of both lines of DDRAM, and at the ends of CGRAM. -/
theorem test_witness_chip_state :
    (∀ a ∈ [0x00#7, 0x27#7, 0x40#7, 0x67#7],
      (withChip (chipAt a)).env = .reference (chipAt a) ∧ (withChip (chipAt a)).atRest = true ∧
      (chipAt a).refusing = false ∧ (chipAt a).busy = 0 ∧
      (chipAt a).draws.next = (1, { script := [1, 1], count := 0 }) ∧
      (a.toNat ≤ 0x27 ∨ (0x40 ≤ a.toNat ∧ a.toNat ≤ 0x67))) ∧
    ∀ a ∈ [0x00#7, 0x3F#7], { chipAt a with sel := .cgram }.busy = 0 ∧ a.toNat < 64 := by
  refine ⟨fun a h => ⟨rfl, rfl, rfl, rfl, rfl, ?_⟩, fun a h => ⟨rfl, ?_⟩⟩
  · revert a
    decide
  · revert a
    decide
/-- StatusReadIsHarmless: not busy, and busy once more. -/
theorem test_witness_status :
    (chipAt 0x27#7).readStatus = .ok (0x27#8, chipAt 0x27#7) ∧
      ∃ v c, { chipAt 0x27#7 with busy := 1 }.readStatus = .ok (v, c) ∧ busyFlag v = true :=
  ⟨rfl, _, _, rfl, rfl⟩
/-- RoundTripReturnsTheByteWritten: program P5 at the last cell of line 1. -/
theorem test_witness_round_trip :
    ∃ (s : State) (kw kd kr : Command), s.Accepts ∧ s.rst = false ∧ s.params.maxPolls = none ∧
      s.env = .reference (chipAt 0x27#7) ∧ (chipAt 0x27#7).wf ∧ (chipAt 0x27#7).refusing = false ∧
      (chipAt 0x27#7).sel = .ddram ∧ isDdramCell (chipAt 0x27#7).ac = true ∧ s.host = [kw, kd, kr] ∧
      decode (.command kw) = .ok (.writeByte 0x5A#8) ∧
      decode (.command kd) = .ok (.setDDRAMAddress ((chipAt 0x27#7).ac.setWidth 8)) ∧
      decode (.command kr) = .ok .readByte :=
  ⟨{ withChip (chipAt 0x27#7) with
      host := [{ plain 11#5 with a := 0x5A#8 }, { plain 15#5 with a := 0x27#8 }, plain 18#5] },
    { plain 11#5 with a := 0x5A#8 }, { plain 15#5 with a := 0x27#8 }, plain 18#5, ⟨rfl, rfl, rfl⟩, rfl, rfl, rfl,
    ⟨by decide, by decide, by decide, by decide⟩, rfl, rfl, rfl, rfl, rfl, rfl, rfl⟩
/-- WaitsAreRoundedUp, TransactionsLastTheirMinimum: the finest resolution and the default one. -/
theorem test_witness_resolution :
    1 ≤ { Params.default with delayRes := 1 }.delayRes ∧ Params.default.delayRes = 1000 := by decide

end Sys2Proof.Tests
end

section
/-! SUPPORT. Words: the decoder and the word constructors are inverse to each other on the nine instruction words (R84 to
R92, R96). -/

namespace Sys2Proof.Machine

/-- A flag as a word: bit 0 is the flag, the others are clear. -/
theorem boolBit_getElem (b : Bool) (i : Nat) (hi : i < 10) : (boolBit b)[i] = (decide (i = 0) && b) := by
  cases b <;> simp [boolBit, BitVec.getElem_one]

/-- Words agree when their ten bits do. -/
theorem word_ext {x w : Word10}
    (h : x[9] = w[9] ∧ x[8] = w[8] ∧ x[7] = w[7] ∧ x[6] = w[6] ∧ x[5] = w[5] ∧ x[4] = w[4] ∧ x[3] = w[3] ∧
      x[2] = w[2] ∧ x[1] = w[1] ∧ x[0] = w[0]) : x = w := by
  refine BitVec.eq_of_getElem_eq fun i hi => ?_
  interval_cases i <;> simp only [h]

/-- A word the decoder reads as an instruction is that instruction's word: each branch has fixed the bits its constructor
fixes, so the two agree bit by bit. -/
theorem encode_of_decodeWord {i : Instr} {w : Word10} (h : decodeWord w = .ok i) : encode i = .word w := by
  have hlow : (w.extractLsb' 0 2 == 0#2) = (!w[1] && !w[0]) := by
    rw [Bool.eq_iff_iff]
    simp [BitVec.eq_of_getElem_eq_iff, Nat.le_one_iff_eq_zero_or_eq_one, or_imp, forall_and, and_comm]
  simp only [decodeWord, hlow] at h
  split_ifs at h <;> cases h <;> refine congrArg Encoded.word (word_ext ?_)
  all_goals
    simp_all [wordClear, wordHome, wordEntry, wordDispctl, wordShift, wordFuncset, wordSetcg, wordSetdd, wordData,
      boolBit_getElem]

/-- A selector the decoder reads as an instruction is that instruction's selector. -/
theorem encode_of_decodeSelector {i : Instr} {sel : BitVec 2} (h : decodeSelector sel = .ok i) :
    encode i = .selector sel := by
  simp only [decodeSelector, beq_iff_eq] at h
  split_ifs at h with hstatus hdata
  · cases h
    exact congrArg Encoded.selector hstatus.symm
  · cases h
    exact congrArg Encoded.selector hdata.symm

/-- A command decodes to an operation (R100). -/
theorem isOperation_of_decodeCommand {i : Instr} {k : Command} (h : decodeCommand k = .ok i) : i.isOperation = true := by
  unfold decodeCommand at h
  split at h <;> cases h <;> rfl

/-- The six address bits of W_SETCG (R90). -/
theorem extract_wordSetcg (a : BitVec 6) : (wordSetcg a).extractLsb' 0 6 = a := by
  refine BitVec.eq_of_getElem_eq fun i hi => ?_
  interval_cases i <;> simp [wordSetcg]

/-- The seven address bits of W_SETDD (R91). -/
theorem extract_wordSetdd (a : BitVec 7) : (wordSetdd a).extractLsb' 0 7 = a := by
  refine BitVec.eq_of_getElem_eq fun i hi => ?_
  interval_cases i <;> simp [wordSetdd]

/-- The byte of W_DATA (R92). -/
theorem extract_wordData (v : Byte) : (wordData v).extractLsb' 0 8 = v := by
  refine BitVec.eq_of_getElem_eq fun i hi => ?_
  interval_cases i <;> simp [wordData]

/-- The decoder reads an instruction's word as that instruction. -/
theorem decodeWord_of_encode {i : Instr} {w : Word10} (h : encode i = .word w) : decodeWord w = .ok i := by
  cases i with
  | wClear => cases h; rfl
  | wHome => cases h; rfl
  | wEntry x y => cases h; cases x <;> cases y <;> rfl
  | wDispctl d c b => cases h; cases d <;> cases c <;> cases b <;> rfl
  | wShift sh d => cases h; cases sh <;> cases d <;> rfl
  | wFuncset l n f => cases h; cases l <;> cases n <;> cases f <;> rfl
  | wSetcg a =>
    cases h
    simp only [decodeWord, extract_wordSetcg]
    simp [wordSetcg]
  | wSetdd a =>
    cases h
    simp only [decodeWord, extract_wordSetdd]
    simp [wordSetdd]
  | wData v =>
    cases h
    simp only [decodeWord, extract_wordData]
    simp [wordData]
  | _ => cases h

end Sys2Proof.Machine
end

section
/-! SUPPORT. The reference chip: the steps of its counter, and its state after each word and data read it takes (R74). -/

namespace Sys2Proof.Machine

/-- Settles O59: in DDRAM the two wraps of each direction are the branches of `addressStep`; CGRAM is arithmetic. -/
theorem chipCounterSteps : Obligations.ChipCounterSteps := by
  intro a
  refine ⟨?_, ?_, ?_, ?_⟩ <;> simp only [addressStep, ← BitVec.toNat_inj, BitVec.toNat_ofNat, if_true,
    if_false, Bool.false_eq_true]
  · split_ifs with hend hlast
    · rfl
    · rfl
    · simp
  · split_ifs with hfirst hline
    · rfl
    · rfl
    · have hpos : 1#7 ≤ a := by bv_omega
      simp [BitVec.toNat_sub_of_le hpos]
  · omega
  · split_ifs <;> omega

/-- A write transaction the environment lets through, from a bus at rest. -/
theorem writeTransaction_eq {s : State} {w : Word10} {env : Env} (hr : s.atRest = true) (hw : w[8] = false)
    (henv : s.env.write w = .ok env) : writeTransaction w s = .next (s.afterWrite w env) := by
  rcases writeTransaction_cases w s with ⟨h, -⟩ | ⟨-, h, -⟩ | ⟨-, -, r, h, -⟩ | ⟨-, -, env', h, e⟩
  · simp [hw] at h
  · simp [hr] at h
  · simp [henv] at h
  · rw [henv] at h
    cases h
    exact e

/-- A ready chip takes the word of an instruction it can execute, with a fresh busy count. -/
theorem Chip.write_of_execute {c c' : Chip} {i : Instr} {w : Word10} (hf : c.refusing = false) (hb : c.busy = 0)
    (hw : encode i = .word w) (he : c.execute i = .ok c') : c.write w = .ok c'.startBusy := by
  simp [Chip.write, hf, hb, decodeWord_of_encode hw, he]

/-- The address counter is at a cell of the memory it points into. -/
theorem Chip.atCell_of_bounds {c : Chip}
    (hd : c.sel = .ddram → c.ac.toNat ≤ 0x27 ∨ (0x40 ≤ c.ac.toNat ∧ c.ac.toNat ≤ 0x67))
    (hg : c.sel = .cgram → c.ac.toNat < 64) : c.atCell = true := by
  cases hs : c.sel with
  | ddram => simpa [Chip.atCell, hs, isDdramCell] using hd hs
  | cgram => simpa [Chip.atCell, hs] using hg hs

/-- A word whose execution the reference chip accepts, sent from a bus at rest while the chip is ready. -/
theorem exec_word_reference {s : State} {c c' : Chip} {i : Instr} {w : Word10} (hs : s.env = .reference c)
    (hr : s.atRest = true) (hf : c.refusing = false) (hb : c.busy = 0) (hw : encode i = .word w)
    (he : c.execute i = .ok c') : ∃ t, exec i s = .next t ∧ t.env = .reference c'.startBusy := by
  have henv : s.env.write w = .ok (.reference c'.startBusy) := by
    simp [hs, Env.write, Chip.write_of_execute hf hb hw he]
  exact ⟨_, (exec_word hw s).trans (writeTransaction_eq hr (Laws.WordRwClear.all i w hw) henv), rfl⟩

/-- A data read from a bus at rest while the reference chip is ready and its counter is at a cell. -/
theorem exec_dataRead_reference {s : State} {c : Chip} (hs : s.env = .reference c) (hr : s.atRest = true)
    (hf : c.refusing = false) (hb : c.busy = 0) (hc : c.atCell = true) :
    ∃ t, exec .dataRead s = .next t ∧ t.sampled = c.readCell ∧ t.env = .reference c.advance.startBusy := by
  have henv : s.env.read true = .ok (c.readCell, .reference c.advance.startBusy) := by
    simp [hs, Env.read, Chip.readData, hf, hb, hc]
  refine ⟨(s.afterRead true c.readCell (.reference c.advance.startBusy)).setSampled c.readCell, ?_, rfl, rfl⟩
  simp [exec, execDataRead, readTransaction, readBus_eq hr henv]

/-- A fresh busy count, with the draw named. -/
theorem Chip.startBusy_eq {c : Chip} {b : Nat} {d : Draws} (h : c.draws.next = (b, d)) :
    c.startBusy = { c with busy := b, draws := d } := by
  simp [Chip.startBusy, h]

/-- What the counter's cell reads as, by the memory it points into. -/
theorem Chip.readCell_eq (c : Chip) :
    c.readCell = if c.sel = .ddram then Memory.read c.ddram c.ac.toNat else Memory.read c.cgram c.ac.toNat := by
  cases hs : c.sel <;> simp [Chip.readCell, Chip.memory, hs]

/-- A byte written at the counter's cell, by the memory it points into. -/
theorem Chip.writeCell_eq (c : Chip) (v : Byte) :
    c.writeCell v =
      { c with
        ddram := if c.sel = .ddram then Memory.write c.ddram c.ac.toNat v else c.ddram
        cgram := if c.sel = .cgram then Memory.write c.cgram c.ac.toNat v else c.cgram } := by
  cases hs : c.sel <;> simp [Chip.writeCell, hs]

/-- Executing a word uses no draw. -/
theorem Chip.execute_draws {c c' : Chip} {i : Instr} (h : c.execute i = .ok c') : c'.draws = c.draws := by
  cases i with
  | wData v =>
    simp only [Chip.execute, Chip.writeCell_eq] at h
    split at h <;> cases h
    rfl
  | wShift sh d => cases sh <;> cases h <;> rfl
  | _ => cases h <;> rfl

/-- Settles O58: each word through `exec_word_reference`, the data read through `exec_dataRead_reference`. -/
theorem chipStateAfterEachInstruction : Obligations.ChipStateAfterEachInstruction := by
  intro s c b d hs hr hf hb hd
  have hword {i : Instr} {w : Word10} {c₁ c₂ : Chip} (hw : encode i = .word w) (he : c.execute i = .ok c₁)
      (hc : { c₁ with busy := b, draws := d } = c₂) : ∃ t, exec i s = .next t ∧ t.env = .reference c₂ :=
    hc ▸ Chip.startBusy_eq (Chip.execute_draws he ▸ hd) ▸ exec_word_reference hs hr hf hb hw he
  refine ⟨hword rfl rfl rfl, hword rfl rfl rfl, fun x y => hword rfl rfl rfl, fun on cur bl => hword rfl rfl rfl,
    fun right => hword rfl rfl rfl, fun right => hword rfl rfl rfl, fun l n f => hword rfl rfl (by simp [hf]),
    fun a => hword rfl rfl (by simp), fun a => hword rfl rfl rfl, fun hdd hcg => ?_⟩
  have hcell := Chip.atCell_of_bounds hdd hcg
  refine ⟨fun v => ?_, ?_⟩
  · have hdata : c.execute (.wData v) = .ok (c.writeCell v).advance := if_pos hcell
    exact hword rfl hdata (by simp [Chip.writeCell_eq, Chip.advance])
  · have hread := exec_dataRead_reference hs hr hf hb hcell
    rwa [Chip.readCell_eq, Chip.startBusy_eq (c := c.advance) hd] at hread

end Sys2Proof.Machine
end

section
/-! SUPPORT. The transaction-level trace (R12): what each change of the state adds to it, and what that does to the entry
guard's reading of it (R34, R134). -/

namespace Sys2Proof.Machine

/-- The projection of a trace in two parts: the second is read from what the first leaves on the lines. -/
theorem transactionsFrom_append (eActive : Bool) (l : LinesSeen) (es fs : List Event) :
    transactionsFrom eActive l (es ++ fs) =
      transactionsFrom eActive l es ++ transactionsFrom eActive (es.foldl LinesSeen.after l) fs := by
  induction es generalizing l with
  | nil => rfl
  | cons ev es ih => simp [transactionsFrom, ih]

/-- After the ten line writes of R110 the lines carry the word. -/
theorem word_of_lines {w : Word10} (hw : w[8] = false) :
    boolBit w[9] <<< 9 ||| boolBit w[8] <<< 8 ||| (w.extractLsb' 0 8).setWidth 10 = w :=
  word_ext (by simp [boolBit_getElem, hw])

/-- R110 in the transaction-level trace: one write of the word. -/
theorem State.transactions_afterWrite (s : State) {w : Word10} (env : Env) (hw : w[8] = false) :
    (s.afterWrite w env).transactions = s.transactions ++ [.write w] := by
  simpa [State.transactions, State.afterWrite, transactionsFrom_append, writeEvents, transactionsFrom, LinesSeen.emits,
    LinesSeen.after, LinesSeen.strobe, LinesSeen.word, setBits_eq_low_byte, hw] using word_of_lines hw

/-- R111 in the transaction-level trace: one read that sampled the byte. -/
theorem State.transactions_afterRead (s : State) (rs : Bool) (v : Byte) (env : Env) :
    (s.afterRead rs v env).transactions = s.transactions ++ [.read rs true v] := by
  simp [State.transactions, State.afterRead, transactionsFrom_append, readEvents, transactionsFrom, LinesSeen.emits,
    LinesSeen.after, LinesSeen.strobe]

/-- One more transaction is one more step of the guard. -/
theorem guardOf_append (ts : List BusTransaction) (x : BusTransaction) :
    guardOf (ts ++ [x]) = guardStep (guardOf ts) x := by
  simp [guardOf]

/-- A wait leaves the guard as it is: it is no transaction. -/
@[simp] theorem State.guardOf_delay (s : State) (k : Wait) :
    guardOf (s.delay k).transactions = guardOf s.transactions := by
  cases k <;>
    simp [State.transactions, transactionsFrom_append, transactionsFrom, LinesSeen.emits, guardOf, guardStep]

/-- The same of TimingEnable. -/
@[simp] theorem State.guardOf_enableTiming (s : State) :
    guardOf s.enableTiming.transactions = guardOf s.transactions := by
  simp [State.transactions, transactionsFrom_append, transactionsFrom, LinesSeen.emits, guardOf, guardStep]

/-- A write transaction: guarded when a ready read came directly before, and the ready read is used up. -/
theorem State.guardOf_afterWrite (s : State) {w : Word10} (env : Env) (hw : w[8] = false) :
    guardOf (s.afterWrite w env).transactions = ((guardOf s.transactions).1 && (guardOf s.transactions).2, false) := by
  rw [s.transactions_afterWrite env hw, guardOf_append]
  rfl

/-- A data read, the same. -/
theorem State.guardOf_afterDataRead (s : State) (v : Byte) (env : Env) :
    guardOf (s.afterRead true v env).transactions =
      ((guardOf s.transactions).1 && (guardOf s.transactions).2, false) := by
  rw [s.transactions_afterRead, guardOf_append]
  rfl

/-- A status read: needs no guard, and is one when it shows ready. -/
theorem State.guardOf_afterStatusRead (s : State) (v : Byte) (env : Env) :
    guardOf (s.afterRead false v env).transactions = ((guardOf s.transactions).1, !busyFlag v) := by
  rw [s.transactions_afterRead, guardOf_append]
  rfl

/-! A change of state that emits no event leaves the trace's reading as it is. -/

section
variable (s : State)

@[simp] theorem State.transactions_setPhase (p : Phase) : (s.setPhase p).transactions = s.transactions := rfl
@[simp] theorem State.transactions_setSeq (q : Sequencer) : (s.setSeq q).transactions = s.transactions := rfl
@[simp] theorem State.transactions_setSampled (v : Byte) : (s.setSampled v).transactions = s.transactions := rfl
@[simp] theorem State.transactions_takeByte : s.takeByte.transactions = s.transactions := rfl
@[simp] theorem State.transactions_complete (r : Result) : (s.complete r).transactions = s.transactions := rfl
@[simp] theorem State.transactions_raiseHardwareUnresponsive :
    s.raiseHardwareUnresponsive.transactions = s.transactions := rfl

end

end Sys2Proof.Machine
end

section
/-! SUPPORT. The pseudocode of every operation puts each instruction directly after a ready-wait (R134, R140, R182). -/

namespace Sys2Proof.Machine

/-- Whether a position is a ready-wait. -/
def Action.isPoll : Action → Bool
  | .awaitReady _ => true
  | .delay _ | .enableTiming | .enterPhase _ | .takeByte | .write _ | .read _ | .respond _ => false

/-- What the entry guard asks of two successive positions: an instruction comes after a ready-wait (R134). -/
abbrev Action.GuardsNext (a b : Action) : Prop := b.isInstruction = true → a.isPoll = true

@[simp] theorem Action.isInstruction_fresh (a : Action) : a.fresh.isInstruction = a.isInstruction := by cases a <;> rfl

@[simp] theorem Action.isPoll_fresh (a : Action) : a.fresh.isPoll = a.isPoll := by cases a <;> rfl

/-- Every instruction but a first one comes directly after a ready-wait. -/
abbrev GuardedCode (todo : List Action) : Prop := todo.IsChain Action.GuardsNext

/-- Every instruction, a first one too, comes directly after a ready-wait. -/
abbrev EntryGuarded (todo : List Action) : Prop := GuardedCode todo ∧ ∀ a ∈ todo.head?, a.isInstruction = false

/-- The repeated shifts, and every one-word operation (R140, R165). -/
theorem entryGuarded_sendWords (ws : List Word10) : EntryGuarded (sendWords ws ++ [.respond .nothing]) := by
  induction ws with
  | nil => exact (by decide : EntryGuarded [.respond .nothing])
  | cons w ws ih =>
    obtain ⟨hchain, hhead⟩ := ih
    refine ⟨?_, by simp [sendWords, Action.isInstruction]⟩
    simp only [sendWords, List.cons_append, List.isChain_cons_cons]
    exact ⟨fun _ => rfl, hchain.cons fun b hb hi => by simp [hhead b hb] at hi⟩

/-- A string (R181). -/
theorem entryGuarded_sendBytes (bs : List Byte) : EntryGuarded (sendBytes bs ++ [.respond .nothing]) := by
  induction bs with
  | nil => exact (by decide : EntryGuarded [.respond .nothing])
  | cons b bs ih =>
    obtain ⟨hchain, hhead⟩ := ih
    refine ⟨?_, by simp [sendBytes, Action.isInstruction]⟩
    simp only [sendBytes, List.cons_append, List.isChain_cons_cons]
    exact ⟨nofun, fun _ => rfl, hchain.cons fun b hb hi => by simp [hhead b hb] at hi⟩

/-- The common shape of R140. -/
theorem entryGuarded_sendWord (w : Word10) : EntryGuarded (sendWord w) := entryGuarded_sendWords [w]

/-- Every operation's program. -/
theorem entryGuarded_program {i : Instr} (pops : Nat) (hi : i.isOperation = true) : EntryGuarded (program pops i) := by
  cases i with
  | clear => exact entryGuarded_sendWord _
  | returnHome => exact entryGuarded_sendWord _
  | entryModeSet increment shift => exact entryGuarded_sendWord _
  | displayControl display cursor blink => exact entryGuarded_sendWord _
  | shiftCursor right => exact entryGuarded_sendWord _
  | moveCursor line column => exact entryGuarded_sendWord _
  | shiftDisplay right => exact entryGuarded_sendWord _
  | functionSet bits lines font => exact entryGuarded_sendWord _
  | writeByte byte => exact entryGuarded_sendWord _
  | writeCharacter ch => exact entryGuarded_sendWord _
  | setCGRAMAddress addr => exact entryGuarded_sendWord _
  | setDDRAMAddress addr => exact entryGuarded_sendWord _
  | shiftDisplayRight n => exact entryGuarded_sendWords _
  | shiftDisplayLeft n => exact entryGuarded_sendWords _
  | writeString len text => exact entryGuarded_sendBytes _
  | isBusy => exact (by decide : EntryGuarded isBusyActions)
  | getCurrentLine => exact (by decide : EntryGuarded getCurrentLineActions)
  | readAddressCounter => exact (by decide : EntryGuarded readAddressCounterActions)
  | readByte => exact (by decide : EntryGuarded readByteActions)
  | initializeDisplay => exact (by decide : EntryGuarded initializeActions)
  | _ => cases hi

/-- An operation in flight stands before code in which every later instruction comes directly after a ready-wait. -/
theorem State.OnProgram.guardedCode {s : State} {op : Instr} {todo : List Action} (h : s.OnProgram)
    (hq : s.seq = .running op todo) : GuardedCode todo := by
  simp only [State.OnProgram, hq] at h
  obtain ⟨hop, ⟨pops, hsuffix⟩, -⟩ := h
  have hcode := (entryGuarded_program pops hop).1.suffix hsuffix
  simpa [Action.GuardsNext, List.isChain_map] using hcode

end Sys2Proof.Machine
end

section
/-! SUPPORT. The entry guard is kept by one position, by a run of positions, and by a step. -/

namespace Sys2Proof.Machine

/-- The entry guard of a state that stands before these positions (`State.Guarded` with the position as an argument). -/
def State.GuardedAt (s : State) (todo : List Action) : Prop :=
  (guardOf s.transactions).1 = true ∧
    ∀ a ∈ todo.head?, a.isInstruction = true → (guardOf s.transactions).2 = true

/-- With no operation in flight only the record counts. -/
theorem State.guarded_of_idle {s : State} (hq : s.seq = .idle) (h : (guardOf s.transactions).1 = true) : s.Guarded :=
  ⟨h, by simp [hq]⟩

/-- With one, the position it stands before counts too. -/
theorem State.guarded_running_iff {s : State} {op : Instr} {todo : List Action} (hq : s.seq = .running op todo) :
    s.Guarded ↔ s.GuardedAt todo := by
  cases todo <;> simp [State.Guarded, State.GuardedAt, hq]

/-- A read selector is the data read when it selects the data register (R99). -/
theorem selectorData_of_bits {sel : BitVec 2} (h0 : sel[0] = true) (h1 : sel[1] = true) : sel = selectorData := by
  revert sel
  decide

/-- A position keeps the record of the guard, when a ready read came directly before it or it is no instruction. -/
theorem act_keeps_record {a : Action} {s t : State} (h : (act a s).leaves t) (hg : (guardOf s.transactions).1 = true)
    (hi : a.isInstruction = true → (guardOf s.transactions).2 = true) : (guardOf t.transactions).1 = true := by
  rcases act_leaves h with ⟨p, v, env, -, -, -, ht⟩ | ⟨k, -, rfl⟩ | ⟨-, rfl⟩ | ⟨p, -, rfl⟩ | ⟨-, rfl⟩ |
    ⟨w, env, rfl, hw, -, -, rfl⟩ | ⟨sel, v, env, rfl, h0, -, -, rfl⟩ | ⟨r, -, rfl⟩
  · rcases ht with rfl | ⟨-, -, rfl⟩ <;> simp [State.guardOf_afterStatusRead, hg]
  · simp [hg]
  · simp [hg]
  · simp [hg]
  · simp [hg]
  · simp [s.guardOf_afterWrite env hw, hg, hi rfl]
  · cases h1 : sel[1] with
    | false => simp [s.guardOf_afterStatusRead, hg]
    | true =>
      have hready := hi (by simp [Action.isInstruction, selectorData_of_bits h0 h1])
      simp [s.guardOf_afterDataRead, hg, hready]
  · simp [hg]

/-- After a busy poll the operation polls again, or ends (R130, R132). -/
theorem afterBusyPoll_cases (polls : Nat) (s : State) :
    (∃ q, afterBusyPoll polls s = .waiting (.awaitReady q) s) ∨
      afterBusyPoll polls s = .ended s.raiseHardwareUnresponsive := by
  cases hm : s.params.maxPolls with
  | none => exact .inl ⟨polls, afterBusyPoll_unbounded polls hm⟩
  | some m =>
    rw [afterBusyPoll_bounded polls hm]
    split
    · exact .inr rfl
    · exact .inl ⟨polls + 1, rfl⟩

/-- A transaction moves on or is refused. -/
theorem progressOf_cases (ans : Answer) : (∃ t, progressOf ans = .onward t) ∨ ∃ r, progressOf ans = .refused r := by
  cases ans with
  | next t => exact .inl ⟨t, rfl⟩
  | refused r => exact .inr ⟨r, rfl⟩
  | fault f => cases f

/-- How an operation goes on from a position: it waits only at a ready-wait, and SEQ is idle when it ends. -/
theorem act_cases (a : Action) (s : State) :
    (∃ t, act a s = .onward t) ∨ (∃ q t, act a s = .waiting (.awaitReady q) t) ∨
      (∃ t, t.seq = .idle ∧ act a s = .ended t) ∨ ∃ r, act a s = .refused r := by
  cases a with
  | awaitReady p =>
    rcases pollOnce_cases p s with ⟨r, -, e⟩ | ⟨v, env, -, -, e⟩ | ⟨v, env, -, -, e⟩ <;> rw [act, e]
    · exact .inr (.inr (.inr ⟨r, rfl⟩))
    · exact .inl ⟨_, rfl⟩
    · rcases afterBusyPoll_cases p (s.afterRead false v env) with ⟨q, e⟩ | e <;> rw [e]
      · exact .inr (.inl ⟨q, _, rfl⟩)
      · exact .inr (.inr (.inl ⟨_, rfl, rfl⟩))
  | write w =>
    rcases progressOf_cases (writeTransaction w s) with h | h
    · exact .inl h
    · exact .inr (.inr (.inr h))
  | read sel =>
    rcases progressOf_cases (readTransaction sel[1] sel[0] s) with h | h
    · exact .inl h
    · exact .inr (.inr (.inr h))
  | respond r => exact .inr (.inr (.inl ⟨_, rfl, rfl⟩))
  | _ => exact .inl ⟨_, rfl⟩

/-- A position at which an operation waits is no instruction. -/
theorem isInstruction_of_waiting {a a' : Action} {s t : State} (h : act a s = .waiting a' t) :
    a'.isInstruction = false := by
  rcases act_cases a s with ⟨u, e⟩ | ⟨q, u, e⟩ | ⟨u, -, e⟩ | ⟨r, e⟩ <;> rw [e] at h <;> cases h
  rfl

/-- A position that ends the operation leaves SEQ idle. -/
theorem seq_of_ended {a : Action} {s t : State} (h : act a s = .ended t) : t.seq = .idle := by
  rcases act_cases a s with ⟨u, e⟩ | ⟨q, u, e⟩ | ⟨u, hu, e⟩ | ⟨r, e⟩ <;> rw [e] at h <;> cases h
  exact hu

/-- The operation moves on from a ready-wait only after a read that showed the chip ready (R130). -/
theorem ready_of_poll_onward {p : Nat} {s t : State} (h : act (.awaitReady p) s = .onward t) :
    (guardOf t.transactions).2 = true := by
  rcases pollOnce_cases p s with ⟨r, -, e⟩ | ⟨v, env, -, hv, e⟩ | ⟨v, env, -, -, e⟩ <;> rw [act, e] at h
  · cases h
  · cases h
    simp [s.guardOf_afterStatusRead, hv.2]
  · rcases afterBusyPoll_cases p (s.afterRead false v env) with ⟨q, e⟩ | e <;> rw [e] at h <;> cases h

/-- Moving on from a position keeps the guard at the next one. -/
theorem guardedAt_of_onward {a : Action} {rest : List Action} {s t : State} (hcode : GuardedCode (a :: rest))
    (hg : s.GuardedAt (a :: rest)) (h : act a s = .onward t) : t.GuardedAt rest := by
  obtain ⟨hrecord, hhead⟩ := hg
  refine ⟨act_keeps_record (.inl h) hrecord (hhead a rfl), fun b hb hi => ?_⟩
  have hpoll := hcode.rel_head? hb hi
  cases a with
  | awaitReady p => exact ready_of_poll_onward h
  | _ => cases hpoll

/-- Waiting at a position keeps the guard. -/
theorem guarded_of_waiting {op : Instr} {a a' : Action} {rest : List Action} {s t : State}
    (hg : s.GuardedAt (a :: rest)) (h : act a s = .waiting a' t) : (t.setSeq (.running op (a' :: rest))).Guarded := by
  rw [State.guarded_running_iff rfl]
  obtain ⟨hrecord, hhead⟩ := hg
  refine ⟨act_keeps_record (t := t) (.inr (.inl ⟨a', h⟩)) hrecord (hhead a rfl), ?_⟩
  simp [isInstruction_of_waiting h]

/-- Ending the operation keeps the guard. -/
theorem guarded_of_ended {a : Action} {rest : List Action} {s t : State} (hg : s.GuardedAt (a :: rest))
    (h : act a s = .ended t) : t.Guarded :=
  State.guarded_of_idle (seq_of_ended h) (act_keeps_record (.inr (.inr h)) hg.1 (hg.2 a rfl))

/-- One position keeps the guard. -/
theorem runOneAction_guarded {op : Instr} {todo : List Action} {s t : State} (hcode : GuardedCode todo)
    (hg : s.GuardedAt todo) (h : runOneAction op todo s = .next t) : t.Guarded := by
  rcases runOneAction_next h with ⟨rfl, rfl⟩ | ⟨a, rest, u, rfl, e, rfl⟩ | ⟨a, rest, a', u, rfl, e, rfl⟩ |
    ⟨a, rest, rfl, e⟩
  · exact State.guarded_of_idle rfl hg.1
  · exact (State.guarded_running_iff rfl).mpr (guardedAt_of_onward (t := u) hcode hg e)
  · exact guarded_of_waiting hg e
  · exact guarded_of_ended hg e

/-- A run of positions keeps the guard. -/
theorem runActions_guarded {op : Instr} {todo : List Action} {s t : State} (hcode : GuardedCode todo)
    (hg : s.GuardedAt todo) (h : runActions op todo s = .next t) : t.Guarded := by
  induction todo generalizing s with
  | nil =>
    cases h
    exact State.guarded_of_idle rfl hg.1
  | cons a rest ih =>
    cases e : act a s with
    | onward u =>
      rw [runActions_onward e] at h
      exact ih hcode.tail (guardedAt_of_onward hcode hg e) h
    | waiting a' u =>
      rw [runActions_waiting e] at h
      cases h
      exact guarded_of_waiting hg e
    | ended u =>
      rw [runActions_ended e] at h
      cases h
      exact guarded_of_ended hg e
    | refused r => simp [runActions, e] at h

/-- An operation is encoded as a command (R100). -/
theorem encode_of_isOperation {i : Instr} (h : i.isOperation = true) : ∃ k, encode i = .command k := by
  cases i <;> first | exact ⟨_, rfl⟩ | cases h

/-- An operation accepted by an idle block keeps the guard, whatever came before it. -/
theorem exec_operation_guarded {i : Instr} {s t : State} (hop : i.isOperation = true) (hq : s.seq = .idle)
    (hg : (guardOf s.transactions).1 = true) (h : exec i s = .next t) : t.Guarded := by
  obtain ⟨k, hk⟩ := encode_of_isOperation hop
  rcases exec_next h with ⟨-, hrun, -⟩ | ⟨-, -, -, hrun⟩ | ⟨w, env, hw, -⟩ | ⟨sel, v, env, hsel, -⟩
  · exact absurd hq hrun
  · obtain ⟨hcode, hhead⟩ := entryGuarded_program s.strPops hop
    exact runActions_guarded (s := s.clearResponse) hcode ⟨hg, fun a ha hi => by simp [hhead a ha] at hi⟩ hrun
  · simp [hk] at hw
  · simp [hk] at hsel

/-- While an operation runs, a step is one position, transactions too: the word or selector it fetches is the one at the
position (R25, R235). -/
theorem step_running {op : Instr} {todo : List Action} {s t : State} (hq : s.seq = .running op todo)
    (h : step s = .next t) : runOneAction op todo s.clearResponse = .next t := by
  rcases step_next h with ⟨-, hq', -⟩ | ⟨-, hq', -⟩ | ⟨k, rest, i, -, hq', -⟩ | ⟨op', w, rest, i, -, hq', hd, he⟩ |
    ⟨op', sel, rest, i, -, hq', hd, he⟩ | ⟨op', todo', -, hq', -, -, he⟩ <;> rw [hq] at hq' <;> cases hq'
  · rw [exec_word (encode_of_decodeWord hd)] at he
    obtain ⟨hw, hr, env, henv, rfl⟩ := writeTransaction_next he
    simp only [runOneAction, act_write (s := s.clearResponse) hr hw henv]
    rfl
  · rw [exec_selector (encode_of_decodeSelector hd)] at he
    obtain ⟨h0, hr, v, env, henv, rfl⟩ := readTransaction_next he
    simp only [runOneAction, act_read (s := s.clearResponse) hr h0 henv]
    rfl
  · exact he

/-- Settles O44: an idle block has nothing to guard until it accepts an operation, whose whole program is entry-guarded; a
running one stands in such a program and takes one position of it. -/
theorem everyInstructionIsGuarded : Obligations.EveryInstructionIsGuarded := by
  intro s t hprog hg h
  cases hq : s.seq with
  | running op todo =>
    have hat : s.clearResponse.GuardedAt todo := (State.guarded_running_iff hq).mp hg
    exact runOneAction_guarded (hprog.guardedCode hq) hat (step_running hq h)
  | idle =>
    rcases step_next h with ⟨-, -, rfl⟩ | ⟨-, -, -, rfl⟩ | ⟨k, rest, i, -, -, -, hd, he⟩ | ⟨op, w, rest, i, -, hq', -⟩ |
      ⟨op, sel, rest, i, -, hq', -⟩ | ⟨op, todo, -, hq', -⟩
    · exact State.guarded_of_idle rfl hg.1
    · exact State.guarded_of_idle hq hg.1
    · exact exec_operation_guarded (s := s.clearResponse.setHost rest) (isOperation_of_decodeCommand hd) hq hg.1 he
    all_goals simp [hq] at hq'

end Sys2Proof.Machine
end

section
/-! SUPPORT. The nine instruction words as numbers (R84 to R92), and the write transaction of each. -/

namespace Sys2Proof.Machine

/-- R86 as a number. -/
theorem wordEntry_eq (x y : Bool) : wordEntry x y = BitVec.ofNat 10 (0x004 + 2 * x.toNat + y.toNat) := by
  cases x <;> cases y <;> rfl

/-- R87 as a number. -/
theorem wordDispctl_eq (d c b : Bool) :
    wordDispctl d c b = BitVec.ofNat 10 (0x008 + 4 * d.toNat + 2 * c.toNat + b.toNat) := by
  cases d <;> cases c <;> cases b <;> rfl

/-- R88 as a number. -/
theorem wordShift_eq (sh d : Bool) : wordShift sh d = BitVec.ofNat 10 (0x010 + 8 * sh.toNat + 4 * d.toNat) := by
  cases sh <;> cases d <;> rfl

/-- R89 as a number. -/
theorem wordFuncset_eq (l n f : Bool) :
    wordFuncset l n f = BitVec.ofNat 10 (0x020 + 16 * l.toNat + 8 * n.toNat + 4 * f.toNat) := by
  cases l <;> cases n <;> cases f <;> rfl

/-- A format bit above a field that fits below it: setting the bit is adding its weight. -/
theorem formatBit_or_field {k j : Nat} (x : BitVec k) (h : k ≤ j) :
    BitVec.ofNat 10 (2 ^ j) ||| x.setWidth 10 = BitVec.ofNat 10 (2 ^ j + x.toNat) := by
  have hx : x.toNat < 2 ^ j := x.isLt.trans_le (Nat.pow_le_pow_right (by decide) h)
  have hadd : 2 ^ j + x.toNat = 2 ^ j ||| x.toNat := by simpa using Nat.two_pow_add_eq_or_of_lt hx 1
  rw [hadd, BitVec.ofNat_or, BitVec.ofNat_toNat]

/-- R90 as a number. -/
theorem wordSetcg_eq (a : BitVec 6) : wordSetcg a = BitVec.ofNat 10 (0x040 + a.toNat) :=
  formatBit_or_field (j := 6) a (by decide)

/-- R91 as a number. -/
theorem wordSetdd_eq (a : BitVec 7) : wordSetdd a = BitVec.ofNat 10 (0x080 + a.toNat) :=
  formatBit_or_field (j := 7) a (by decide)

/-- R92 as a number. -/
theorem wordData_eq (v : Byte) : wordData v = BitVec.ofNat 10 (0x200 + v.toNat) :=
  formatBit_or_field (j := 9) v (by decide)

/-- An instruction whose word is `w` is one write transaction of `w`, when the bus is at rest and the environment takes
the word (R110). -/
theorem exec_of_encode_word {i : Instr} {w : Word10} {s : State} {env : Env} (hw : encode i = .word w)
    (hr : s.atRest = true) (henv : s.env.write w = .ok env) : exec i s = .next (s.afterWrite w env) :=
  (exec_word hw s).trans (writeTransaction_eq hr (Laws.WordRwClear.all i w hw) henv)

/-- Settles O14: each word is the number of its rule, and `exec_of_encode_word` puts it on the bus. -/
theorem instructionWordsGoOnTheBus : Obligations.InstructionWordsGoOnTheBus := by
  intro s env hr
  have hsent {i : Instr} {v w : Word10} (hi : encode i = .word v) (hv : v = w) (henv : s.env.write w = .ok env) :
      exec i s = .next (s.afterWrite w env) :=
    exec_of_encode_word (hi.trans (congrArg Encoded.word hv)) hr henv
  exact ⟨hsent rfl rfl, hsent rfl rfl, fun x y => hsent rfl (wordEntry_eq x y),
    fun d c b => hsent rfl (wordDispctl_eq d c b), fun sh d => hsent rfl (wordShift_eq sh d),
    fun l n f => hsent rfl (wordFuncset_eq l n f), fun a => hsent rfl (wordSetcg_eq a),
    fun a => hsent rfl (wordSetdd_eq a), fun v => hsent rfl (wordData_eq v)⟩

end Sys2Proof.Machine
end

section
/-! SUPPORT. The two transactions of the bus (R110, R111), and the rounding of a wait to the resolution (R114). -/

namespace Sys2Proof.Machine

/-- Settles O11: `writeTransaction_eq`, with RW = 0 and the direction of a bus at rest read into the state it leaves. -/
theorem writeTransactionDrivesTheWord : Obligations.WriteTransactionDrivesTheWord := by
  intro s w env' hw he hd henv
  rw [writeTransaction_eq (s.atRest_iff.mpr ⟨he, hd⟩) hw henv]
  simp [State.afterWrite, writeEvents, hw, hd]

/-- A read transaction that the environment answers, from a bus at rest: its byte is kept in `sampled` (R23). -/
theorem readTransaction_eq {rs : Bool} {s : State} {v : Byte} {env : Env} (hr : s.atRest = true)
    (henv : s.env.read rs = .ok (v, env)) :
    readTransaction rs true s = .next ((s.afterRead rs v env).setSampled v) := by
  simp only [readTransaction, readBus_eq hr henv]

/-- Settles O12: the state `readTransaction_eq` names is the one the obligation writes out. -/
theorem readTransactionSamplesOnce : Obligations.ReadTransactionSamplesOnce := by
  intro s rs v env' he hd henv
  exact readTransaction_eq (s.atRest_iff.mpr ⟨he, hd⟩) henv

/-- The wait asked for is a multiple of the resolution (R114). -/
theorem Wait.delayRes_dvd_asked (p : Params) (k : Wait) : p.delayRes ∣ k.asked p :=
  Nat.dvd_mul_left ..

/-- It reaches the minimum (R8): rounding down what was raised by DELAY_RES - 1 loses at most that. -/
theorem Wait.minimum_le_asked {p : Params} (k : Wait) (hres : 1 ≤ p.delayRes) : k.minimum p ≤ k.asked p := by
  have hlost : k.minimum p + (p.delayRes - 1) < k.asked p + p.delayRes := Nat.lt_div_mul_add hres
  omega

/-- It is less than one DELAY_RES above the minimum, so no smaller multiple would do (D23). -/
theorem Wait.asked_lt_minimum_add {p : Params} (k : Wait) (hres : 1 ≤ p.delayRes) :
    k.asked p < k.minimum p + p.delayRes := by
  have hdown : k.asked p ≤ k.minimum p + (p.delayRes - 1) := Nat.div_mul_le_self ..
  omega

/-- Settles O55: the six minima and the waits at one microsecond are values; the rounding is the three lemmas above. -/
theorem waitsAreRoundedUp : Obligations.WaitsAreRoundedUp := by
  refine ⟨fun p => ⟨rfl, rfl, rfl, rfl, rfl, rfl⟩, fun p k hres => ?_, fun p hus => ?_⟩
  · exact ⟨k.minimum_le_asked hres, k.delayRes_dvd_asked p, k.asked_lt_minimum_add hres⟩
  · simp [Wait.asked, Wait.minimum, hus]

end Sys2Proof.Machine
end

section
/-! SUPPORT. The ready-wait (R130 to R132): the steps of an operation that stands before AwaitReady, one poll each (log
1), and a run of busy polls by induction on the answers, the last one split off. -/

namespace Sys2Proof.Machine

/-! A run of polls, and the answers it gets, with the last one split off. -/

/-- Busy answers with the last one split off. -/
theorem Env.busyFor_concat {vs : List Byte} {v : Byte} {env env' : Env} :
    Env.BusyFor (vs ++ [v]) env env' ↔ ∃ mid, Env.BusyFor vs env mid ∧ mid.AnswersBusy v env' := by
  induction vs generalizing env with
  | nil => simp [Env.BusyFor]
  | cons u us ih =>
    simp only [List.cons_append, Env.BusyFor, ih]
    tauto

/-- The environment a run of polls is said to leave replaces whatever stood there before. -/
theorem State.setEnv_afterPolls (s : State) (vs : List Byte) (mid env : Env) :
    (s.afterPolls vs mid).setEnv env = (s.setEnv env).afterPolls vs env := by
  induction vs generalizing s with
  | nil => rfl
  | cons v vs ih => exact ih (s.afterRead false v mid)

/-- A run of polls with the last one split off; the environments before it do not count. -/
theorem State.afterPolls_concat (s : State) (vs : List Byte) (v : Byte) (mid env : Env) :
    s.afterPolls (vs ++ [v]) env = (s.afterPolls vs mid).afterRead false v env := by
  have henv : (s.afterPolls vs env).setEnv env = (s.afterPolls vs mid).setEnv env :=
    (s.setEnv_afterPolls vs env env).trans (s.setEnv_afterPolls vs mid env).symm
  calc s.afterPolls (vs ++ [v]) env
      = ((s.afterPolls vs env).setEnv env).afterRead false v env := List.foldl_concat ..
    _ = (s.afterPolls vs mid).afterRead false v env := by rw [henv]; rfl

/-- After a run of polls the environment is the one their answers lead to. -/
theorem State.afterPolls_env {s : State} {vs : List Byte} {mid : Env} (h : Env.BusyFor vs s.env mid) :
    (s.afterPolls vs mid).env = mid := by
  induction vs using List.reverseRecOn with
  | nil => exact h
  | append_singleton us u => rw [s.afterPolls_concat us u mid]; rfl

/-- A run of polls keeps the parameters. -/
@[simp] theorem State.afterPolls_params (s : State) (vs : List Byte) (env : Env) :
    (s.afterPolls vs env).params = s.params := by
  induction vs generalizing s with
  | nil => rfl
  | cons v vs ih => exact ih (s.afterRead false v env)

/-- A run of polls returns no result. -/
@[simp] theorem State.afterPolls_results (s : State) (vs : List Byte) (env : Env) :
    (s.afterPolls vs env).results = s.results := by
  induction vs generalizing s with
  | nil => rfl
  | cons v vs ih => exact ih (s.afterRead false v env)

/-- Setting SEQ to what it is changes nothing. -/
theorem State.setSeq_of_eq {s : State} {q : Sequencer} (h : s.seq = q) : s.setSeq q = s :=
  h ▸ rfl

/-! Steps in sequence. -/

/-- After some steps, the others. -/
theorem runSteps_add {n : Nat} {s t : State} (h : runSteps n s = .next t) (k : Nat) :
    runSteps (n + k) s = runSteps k t := by
  induction n generalizing s with
  | zero =>
    cases h
    rw [Nat.zero_add]
  | succ n ih =>
    rw [Nat.succ_add]
    cases e : step s with
    | next u =>
      simp only [runSteps, e] at h ⊢
      exact ih h
    | fault r => simp [runSteps, e] at h
    | refused r => simp [runSteps, e] at h

/-- One step more. -/
theorem runSteps_succ_of_step {n : Nat} {s t u : State} (h : runSteps n s = .next t) (hu : step t = .next u) :
    runSteps (n + 1) s = .next u := by
  rw [runSteps_add h 1]
  simp only [runSteps, hu]

/-! The count of polls (R25, R132). -/

/-- How far this many busy polls move the count of a ready-wait: polls are counted only when MAX_POLLS is finite. -/
def countedPolls (bound : Option Nat) (made : Nat) : Nat :=
  match bound with
  | none => 0
  | some _ => made

@[simp] theorem countedPolls_zero (bound : Option Nat) : countedPolls bound 0 = 0 := by
  cases bound <;> rfl

/-- Under a bound every busy poll counts. -/
theorem countedPolls_of_mem {bound : Option Nat} {m : Nat} (h : m ∈ bound) (made : Nat) :
    countedPolls bound made = made := by
  cases h
  rfl

theorem countedPolls_add (bound : Option Nat) (n k : Nat) :
    countedPolls bound (n + k) = countedPolls bound n + countedPolls bound k := by
  cases bound <;> rfl

/-- A busy poll that is not the last one allowed: the operation polls again (R130, R132). -/
theorem afterBusyPoll_of_more {polls : Nat} {s : State} (hmore : ∀ m ∈ s.params.maxPolls, polls + 1 < m) :
    afterBusyPoll polls s = .waiting (.awaitReady (polls + countedPolls s.params.maxPolls 1)) s := by
  cases hm : s.params.maxPolls with
  | none => exact afterBusyPoll_unbounded polls hm
  | some m => rw [afterBusyPoll_bounded polls hm, if_neg (Nat.not_le.mpr (hmore m hm))]; rfl

/-! A state that stands before a ready-wait. -/

/-- An operation stands before its ready-wait with the bus at rest, no reset asserted and no response pulse left (R25,
R33). -/
structure State.AtWait (s : State) (op : Instr) (polls : Nat) (rest : List Action) : Prop where
  seq : s.seq = .running op (.awaitReady polls :: rest)
  rst : s.rst = false
  rsp : s.rsp = none
  atRest : s.atRest = true

namespace State.AtWait

variable {s : State} {op : Instr} {polls : Nat} {rest : List Action}

/-- The wait may stand at another poll count. -/
theorem recount (h : s.AtWait op polls rest) (q : Nat) :
    (s.setSeq (.running op (.awaitReady q :: rest))).AtWait op q rest :=
  ⟨rfl, h.rst, h.rsp, h.atRest⟩

/-- A run of polls leaves the operation before its wait. -/
theorem afterPolls (h : s.AtWait op polls rest) (vs : List Byte) (env : Env) :
    (s.afterPolls vs env).AtWait op polls rest := by
  induction vs generalizing s with
  | nil => exact h
  | cons v vs ih => exact ih (s := s.afterRead false v env) ⟨h.seq, h.rst, h.rsp, rfl⟩

/-- A step before a ready-wait is its poll (log 1). -/
theorem step_eq (h : s.AtWait op polls rest) : step s = runOneAction op (.awaitReady polls :: rest) s := by
  have hclear : s.clearResponse = s := congrArg (fun r => { s with rsp := r }) h.rsp.symm
  simp [step, fetch, hclear, h.rst, h.seq, fetchPosition]

/-- A poll that shows the chip ready: the operation goes on (R131). -/
theorem step_ready (h : s.AtWait op polls rest) {v : Byte} {env : Env} (hv : s.env.AnswersReady v env) :
    step s = .next ((s.afterRead false v env).setSeq (.running op rest)) := by
  simp only [h.step_eq, runOneAction, act_awaitReady_ready polls h.atRest hv]

/-- A busy poll below the bound: the operation stays before its wait (R131, R132). -/
theorem step_busy (h : s.AtWait op polls rest) {v : Byte} {env : Env} (hv : s.env.AnswersBusy v env)
    (hmore : ∀ m ∈ s.params.maxPolls, polls + 1 < m) :
    step s = .next ((s.afterRead false v env).setSeq
      (.running op (.awaitReady (polls + countedPolls s.params.maxPolls 1) :: rest))) := by
  have hpoll := afterBusyPoll_of_more (s := s.afterRead false v env) hmore
  simp only [h.step_eq, runOneAction, act, pollOnce_busy polls h.atRest hv, hpoll]
  rfl

/-- The last busy poll of a bounded wait (R132). -/
theorem step_unresponsive (h : s.AtWait op polls rest) {v : Byte} {env : Env} (hv : s.env.AnswersBusy v env)
    (hbound : s.params.maxPolls = some (polls + 1)) :
    step s = .next (s.afterRead false v env).raiseHardwareUnresponsive := by
  have hpoll := afterBusyPoll_bounded (s := s.afterRead false v env) polls hbound
  simp only [h.step_eq, runOneAction, act, pollOnce_busy polls h.atRest hv, hpoll, le_refl, if_true]

/-- A run of busy polls below the bound: one step for each answer, and the operation still stands before its wait. -/
theorem runSteps_busy (h : s.AtWait op polls rest) {busy : List Byte} {mid : Env} (hbusy : Env.BusyFor busy s.env mid)
    (hmore : ∀ m ∈ s.params.maxPolls, polls + busy.length < m) :
    runSteps busy.length s = .next ((s.afterPolls busy mid).setSeq
      (.running op (.awaitReady (polls + countedPolls s.params.maxPolls busy.length) :: rest))) := by
  induction busy using List.reverseRecOn generalizing mid with
  | nil => exact congrArg Host.Outcome.next (State.setSeq_of_eq (by simp [h.seq])).symm
  | append_singleton vs v ih =>
    obtain ⟨env, hvs, hv⟩ := Env.busyFor_concat.mp hbusy
    rw [List.length_append, List.length_singleton, ← Nat.add_assoc] at hmore
    have hrun := ih hvs fun m hm => Nat.lt_of_succ_lt (hmore m hm)
    have hat := (h.afterPolls vs env).recount (polls + countedPolls s.params.maxPolls vs.length)
    rw [← State.afterPolls_env hvs] at hv
    have hstep := hat.step_busy hv (by simpa +contextual [countedPolls_of_mem] using hmore)
    rw [State.setSeq_params, State.afterPolls_params, Nat.add_assoc, ← countedPolls_add] at hstep
    rw [List.length_append, s.afterPolls_concat vs v env]
    exact runSteps_succ_of_step hrun hstep

/-- A run of busy polls below the bound and one that shows the chip ready: the operation goes on (R131, R132). -/
theorem runSteps_ready (h : s.AtWait op polls rest) {busy : List Byte} {mid : Env}
    (hbusy : Env.BusyFor busy s.env mid) (hmore : ∀ m ∈ s.params.maxPolls, polls + busy.length < m) {v : Byte}
    {env : Env} (hv : mid.AnswersReady v env) :
    runSteps (busy.length + 1) s = .next ((s.afterPolls (busy ++ [v]) env).setSeq (.running op rest)) := by
  rw [← State.afterPolls_env hbusy] at hv
  rw [s.afterPolls_concat busy v mid]
  exact runSteps_succ_of_step (h.runSteps_busy hbusy hmore) (((h.afterPolls busy mid).recount _).step_ready hv)

/-- As many busy polls as the bound still allows: HardwareUnresponsive (R132, R207). -/
theorem runSteps_unresponsive (h : s.AtWait op polls rest) {busy : List Byte} {mid : Env}
    (hbusy : Env.BusyFor busy s.env mid) (hne : busy ≠ [])
    (hbound : s.params.maxPolls = some (polls + busy.length)) :
    runSteps busy.length s = .next (s.afterPolls busy mid).raiseHardwareUnresponsive := by
  obtain ⟨vs, v, rfl⟩ := (List.eq_nil_or_concat' busy).resolve_left hne
  obtain ⟨env, hvs, hv⟩ := Env.busyFor_concat.mp hbusy
  rw [List.length_append, List.length_singleton] at hbound ⊢
  have hrun := h.runSteps_busy hvs (by simp [hbound])
  have hat := (h.afterPolls vs env).recount (polls + countedPolls s.params.maxPolls vs.length)
  rw [← State.afterPolls_env hvs] at hv
  have hlast := hat.step_unresponsive hv (by simp [hbound, countedPolls_of_mem rfl, Nat.add_assoc])
  rw [s.afterPolls_concat vs v env]
  exact runSteps_succ_of_step hrun hlast

end State.AtWait

/-- Settles O32: an operation that begins with a ready-wait is not initialize, so it is accepted in Ready and runs its
program, whose first position is the busy poll. -/
theorem busyChipHoldsTheOperation : Obligations.BusyChipHoldsTheOperation := by
  intro i s rest v env hs hop hprog hbound hv
  have hinit : i ≠ .initializeDisplay := by
    rintro rfl
    cases hprog
  have hpoll := pollOnce_busy (s := s.clearResponse) 0 hs.rest hv
  rw [afterBusyPoll_unbounded (s := s.clearResponse.afterRead false v env) 0 hbound] at hpoll
  simp only [exec_operation hop hinit, runWhenReady, hs.idle, hs.ready, if_true, hprog]
  exact runActions_waiting hpoll

/-- Settles O33: without a bound every busy poll is below it, and the count does not move. -/
theorem awaitReadyEndsAtTheFirstReadyPoll : Obligations.AwaitReadyEndsAtTheFirstReadyPoll := by
  intro s op p rest busy mid hrst hrsp hrest hbound hseq hbusy
  have hat : s.AtWait op p rest := ⟨hseq, hrst, hrsp, hrest⟩
  have hmore : ∀ m ∈ s.params.maxPolls, p + busy.length < m := by simp [hbound]
  refine ⟨?_, fun v env hv => hat.runSteps_ready hbusy hmore hv⟩
  rw [hat.runSteps_busy hbusy hmore, hbound]
  exact congrArg Host.Outcome.next (State.setSeq_of_eq (hat.afterPolls busy mid).seq)

/-- Settles O34: fewer than `m` busy polls are below the bound, and the last of `m` is at it. -/
theorem boundedPollingRaisesHardwareUnresponsive : Obligations.BoundedPollingRaisesHardwareUnresponsive := by
  intro s op rest m busy mid hrst hrsp hrest hbound hm hseq hbusy
  have hat : s.AtWait op 0 rest := ⟨hseq, hrst, hrsp, hrest⟩
  refine ⟨fun hlt v env hv => hat.runSteps_ready hbusy (by simpa [hbound] using hlt) hv, ?_⟩
  rintro rfl
  rw [hat.runSteps_unresponsive hbusy (List.length_pos_iff.mp hm) (by simpa using hbound),
    State.raiseHardwareUnresponsive, State.complete, State.afterPolls_results]
  rfl

end Sys2Proof.Machine
end

section
/-! SUPPORT. The write operations (R140 to R150): an operation whose pseudocode sends the word of an instruction has the
common shape of R140, at once when the chip is ready and step by step when it is busy; and the arguments of R93 and R94
as numbers. -/

namespace Sys2Proof.Machine

/-! Acceptance (R194). -/

/-- Every operation but initialize requires PHASE = Ready. -/
theorem refusedOutsideReady {i : Instr} (hop : i.isOperation = true) (hinit : i ≠ .initializeDisplay) :
    RefusedOutsideReady i := by
  intro s hidle hphase
  simp only [exec_operation hop hinit, runWhenReady, hidle, if_neg hphase]

/-- An accepted operation runs its program. -/
theorem exec_of_accepts {i : Instr} {s : State} (hop : i.isOperation = true) (hinit : i ≠ .initializeDisplay)
    (hs : s.Accepts) : exec i s = runActions i (program s.strPops i) s.clearResponse := by
  simp only [exec_operation hop hinit, runWhenReady, hs.idle, hs.ready, if_true]

/-- initialize does not begin with a ready-wait (R190). -/
theorem ne_initialize_of_program {i : Instr} {pops p : Nat} {rest : List Action}
    (h : program pops i = .awaitReady p :: rest) : i ≠ .initializeDisplay := by
  rintro rfl
  cases h

/-- One step and then the others. -/
theorem runSteps_succ (k : Nat) (s : State) : runSteps (k + 1) s = thenSteps k (step s) := by
  cases h : step s <;> simp only [runSteps, thenSteps, h]

/-- An operation accepted with none of its pseudocode run stands before its first position. -/
theorem State.load_atWait {i : Instr} {s : State} {p : Nat} {rest : List Action} (hs : s.Accepts) (hrst : s.rst = false)
    (hprog : program s.strPops i = .awaitReady p :: rest) : (s.load i).AtWait i p rest :=
  ⟨congrArg (Sequencer.running i) hprog, hrst, rfl, hs.rest⟩

/-- Accepted while the chip is busy, an operation that begins with a ready-wait takes its first small step (log 1). -/
theorem exec_eq_step_load {i : Instr} {s : State} {rest : List Action} {v : Byte} {env : Env} (hs : s.Accepts)
    (hrst : s.rst = false) (hop : i.isOperation = true) (hprog : program s.strPops i = .awaitReady 0 :: rest)
    (hbound : s.params.maxPolls = none) (hv : s.env.AnswersBusy v env) : exec i s = step (s.load i) := by
  have hbound' : (s.load i).params.maxPolls = none := hbound
  rw [busyChipHoldsTheOperation i s rest v env hs hop hprog hbound hv,
    (State.load_atWait hs hrst hprog).step_busy hv (by simp [hbound']), hbound']
  rfl

/-! The small steps after a ready-wait. -/

/-- SEQ plays no part in a run of polls. -/
theorem State.setSeq_afterPolls (s : State) (q : Sequencer) (vs : List Byte) (env : Env) :
    (s.setSeq q).afterPolls vs env = (s.afterPolls vs env).setSeq q := by
  induction vs generalizing s with
  | nil => rfl
  | cons v vs ih => exact ih (s.afterRead false v env)

/-- The environment after a run with a last poll. -/
@[simp] theorem State.afterPolls_concat_env (s : State) (vs : List Byte) (v : Byte) (env : Env) :
    (s.afterPolls (vs ++ [v]) env).env = env := by
  rw [s.afterPolls_concat vs v env]
  rfl

/-- A step at a write position fetches the instruction of its word and runs it (R25, R110). -/
theorem step_write {s : State} {op j : Instr} {w : Word10} {rest : List Action} {env : Env} (hrst : s.rst = false)
    (hq : s.seq = .running op (.write w :: rest)) (hj : encode j = .word w) (hr : s.atRest = true)
    (henv : s.env.write w = .ok env) :
    step s = .next ((s.clearResponse.afterWrite w env).setSeq (.running op rest)) := by
  simp only [step, fetch, State.clearResponse_rst, hrst, Bool.false_eq_true, if_false, State.clearResponse_seq, hq,
    fetchPosition, fetchTransaction, decode, decodeWord_of_encode hj]
  exact exec_of_encode_word (s := s.clearResponse.setSeq (.running op rest)) hj hr henv

/-- A step at a return completes the operation (R32). -/
theorem step_respond {s : State} {op : Instr} {r : Reply} {rest : List Action} (hrst : s.rst = false)
    (hq : s.seq = .running op (.respond r :: rest)) : step s = .next (s.complete (r.result s.sampled)) := by
  simp only [step, fetch, State.clearResponse_rst, hrst, Bool.false_eq_true, if_false, State.clearResponse_seq, hq,
    fetchPosition, runOneAction, act]
  rfl

/-- The last two positions of R140, one step each. -/
theorem runSteps_write_respond {s : State} {op j : Instr} {w : Word10} {env : Env} (hrst : s.rst = false)
    (hj : encode j = .word w) (hr : s.atRest = true) (henv : s.env.write w = .ok env) :
    runSteps 2 (s.setSeq (.running op [.write w, .respond .nothing])) =
      .next ((s.afterWrite w env).complete .nothing) :=
  runSteps_succ_of_step (n := 1) (runSteps_succ_of_step rfl (step_write hrst rfl hj hr henv))
    (step_respond (r := .nothing) hrst rfl)

/-! The common shape of R140. -/

/-- Ready at the first poll: the whole of `sendWord` in one run. -/
theorem runActions_sendWord {s : State} {op j : Instr} {w : Word10} {v : Byte} {env₁ env₂ : Env}
    (hj : encode j = .word w) (hr : s.atRest = true) (hv : s.env.AnswersReady v env₁)
    (henv : env₁.write w = .ok env₂) :
    runActions op (sendWord w) s = .next ((s.afterSend v w env₁ env₂).complete .nothing) := by
  have hwrite : act (.write w) (s.afterRead false v env₁) = .onward (s.afterSend v w env₁ env₂) :=
    act_write rfl (Laws.WordRwClear.all j w hj) henv
  rw [sendWord, runActions_onward (act_awaitReady_ready 0 hr hv), runActions_onward hwrite]
  exact runActions_ended rfl

/-- Busy at the first poll: one step for each poll (the first is the acceptance itself), one for the write transaction and
one for the return. -/
theorem thenSteps_exec_sendWord {i j : Instr} {w : Word10} {s : State} {busy : List Byte} {mid : Env} {v : Byte}
    {env₁ env₂ : Env} (hop : i.isOperation = true) (hprog : program s.strPops i = sendWord w) (hj : encode j = .word w)
    (hs : s.Accepts) (hrst : s.rst = false) (hbound : s.params.maxPolls = none) (hne : busy ≠ [])
    (hbusy : Env.BusyFor busy s.env mid) (hv : mid.AnswersReady v env₁) (henv : env₁.write w = .ok env₂) :
    thenSteps (busy.length + 2) (exec i s) = .next
      (((s.clearResponse.afterPolls (busy ++ [v]) env₁).afterWrite w env₂).complete .nothing) := by
  have hfirst : exec i s = step (s.load i) := by
    obtain ⟨u, us, rfl⟩ := List.exists_cons_of_ne_nil hne
    obtain ⟨env, hu, -⟩ := hbusy
    exact exec_eq_step_load hs hrst hop hprog hbound hu
  have hat := State.load_atWait hs hrst hprog
  have hpolls := hat.runSteps_ready hbusy (fun m hm => absurd (hbound.symm.trans hm) nofun) hv
  have hpolled := hat.afterPolls (busy ++ [v]) env₁
  have hsent := runSteps_write_respond (op := i) hpolled.rst hj hpolled.atRest (by simpa using henv)
  rw [hfirst, ← runSteps_succ, Nat.add_right_comm, runSteps_add hpolls 2, hsent, State.load, State.setSeq_afterPolls]
  rfl

/-- An operation whose pseudocode sends the word of an instruction `j` has the common shape of R140. -/
theorem sendsOneWord_of_program {i : Instr} (j : Instr) {v w : Word10} (hop : i.isOperation = true)
    (hj : encode j = .word v) (hprog : ∀ pops, program pops i = sendWord v) (hword : v = w) : SendsOneWord i w := by
  subst hword
  have hinit : i ≠ .initializeDisplay := ne_initialize_of_program (hprog 0)
  have hready {s : State} {b : Byte} {env₁ env₂ : Env} (hs : s.Accepts) (hb : s.env.AnswersReady b env₁)
      (henv : env₁.write v = .ok env₂) :
      exec i s = .next ((s.clearResponse.afterSend b v env₁ env₂).complete .nothing) := by
    rw [exec_of_accepts hop hinit hs, hprog]
    exact runActions_sendWord hj hs.rest hb henv
  refine ⟨refusedOutsideReady hop hinit, fun s b env₁ env₂ hs hb henv => hready hs hb henv, ?_⟩
  intro s busy mid b env₁ env₂ hs hrst hbound hbusy hb henv
  cases busy with
  | nil =>
    cases hbusy
    exact ⟨0, congrArg (thenSteps 0) (hready hs hb henv)⟩
  | cons u us =>
    exact ⟨_, thenSteps_exec_sendWord hop (hprog _) hj hs hrst hbound (List.cons_ne_nil u us) hbusy hb henv⟩

/-! The arguments. -/

/-- The bit a flag argument is packed as (R93). -/
theorem toNat_boolOf (v : Byte) : (boolOf v).toNat = flagBit v := by
  by_cases h : v = 0#8 <;> simp [boolOf, flagBit, h]

/-- The six bits of a CGRAM address (R94). -/
theorem toNat_cgramPayload (addr : Byte) : (cgramPayload addr).toNat = addr.toNat % 64 := by
  simp [cgramPayload]

/-- The seven bits of a DDRAM address (R94). -/
theorem toNat_ddramPayload (addr : Byte) : (ddramPayload addr).toNat = addr.toNat % 128 := by
  simp [ddramPayload]

/-- Settles O16: the two constant words are those of `wClear` and `wHome`. -/
theorem clearAndReturnHomeSendTheirWords : Obligations.ClearAndReturnHomeSendTheirWords :=
  ⟨sendsOneWord_of_program .wClear rfl rfl (fun _ => rfl) rfl, sendsOneWord_of_program .wHome rfl rfl (fun _ => rfl) rfl⟩

/-- Settles O17: each word is that of a flag instruction, and its bits are the flags read as booleans. -/
theorem flagOperationsSendTheirWords : Obligations.FlagOperationsSendTheirWords := by
  intro a b c
  simp only [← toNat_boolOf]
  exact ⟨sendsOneWord_of_program (.wEntry _ _) rfl rfl (fun _ => rfl) (wordEntry_eq ..),
    sendsOneWord_of_program (.wDispctl _ _ _) rfl rfl (fun _ => rfl) (wordDispctl_eq ..),
    sendsOneWord_of_program (.wShift _ _) rfl rfl (fun _ => rfl) (wordShift_eq false _),
    sendsOneWord_of_program (.wShift _ _) rfl rfl (fun _ => rfl) (wordShift_eq true _),
    sendsOneWord_of_program (.wFuncset _ _ _) rfl rfl (fun _ => rfl) (wordFuncset_eq ..)⟩

/-- Settles O18: the payload is the argument modulo 64 or 128, below the format bit. -/
theorem addressOperationsSendTheirWords : Obligations.AddressOperationsSendTheirWords := by
  intro addr
  rw [← toNat_cgramPayload, ← toNat_ddramPayload]
  exact ⟨sendsOneWord_of_program (.wSetcg _) rfl rfl (fun _ => rfl) (wordSetcg_eq _),
    sendsOneWord_of_program (.wSetdd _) rfl rfl (fun _ => rfl) (wordSetdd_eq _)⟩

/-- Settles O19: both operations send the data word of their byte. -/
theorem byteOperationsSendTheirWords : Obligations.ByteOperationsSendTheirWords :=
  fun byte => ⟨sendsOneWord_of_program (.wData byte) rfl rfl (fun _ => rfl) (wordData_eq byte),
    sendsOneWord_of_program (.wData byte) rfl rfl (fun _ => rfl) (wordData_eq byte)⟩

end Sys2Proof.Machine
end

section
/-! SUPPORT. The addressing module: the DDRAM address of a position (R160) and the line of an address (R161). -/

namespace Sys2Proof.Machine

/-- Clamping (R11) as the library's minimum and maximum. -/
theorem clamp_eq_min_max (v : Nat) {lo hi : Nat} (h : lo ≤ hi) : clamp v lo hi = min (max v lo) hi := by
  unfold clamp
  split
  · omega
  · split <;> omega

/-- A clamped line is the first exactly when the line is at most 1 (R160). -/
theorem clamp_line_eq_one_iff (line : Nat) : clamp line 1 2 = 1 ↔ line ≤ 1 := by
  rw [clamp_eq_min_max line (by decide)]
  omega

/-- Settles O52: both bases and the 39 of the last column fit in seven bits, so the address is the sum of R160. -/
theorem ddramAddressOfAPosition : Obligations.DdramAddressOfAPosition := by
  intro line column
  simp only [toDDRAMAddress, clamp_line_eq_one_iff, clamp_eq_min_max column.toNat (show 1 ≤ 40 by decide),
    BitVec.toNat_ofNat]
  apply Nat.mod_eq_of_lt
  split <;> omega

/-- The first line's addresses (R161). -/
theorem classifyAddress_eq_line1_iff (a : Byte) : classifyAddress a = .line1 ↔ a.toNat ≤ 0x27 := by
  unfold classifyAddress
  split
  · simpa
  · split <;> simpa using ‹¬ a.toNat ≤ 0x27›

/-- The second line's addresses (R161): none of them is one of the first line's. -/
theorem classifyAddress_eq_line2_iff (a : Byte) :
    classifyAddress a = .line2 ↔ 0x40 ≤ a.toNat ∧ a.toNat ≤ 0x67 := by
  unfold classifyAddress
  split
  · simp only [reduceCtorEq, false_iff]
    omega
  · split <;> simp only [reduceCtorEq, true_iff, false_iff] <;> assumption

/-- The other addresses (R161, D28): what is neither the first line nor the second. -/
theorem classifyAddress_eq_unknown_iff (a : Byte) :
    classifyAddress a = .unknown ↔ ¬ a.toNat ≤ 0x27 ∧ ¬(0x40 ≤ a.toNat ∧ a.toNat ≤ 0x67) := by
  rw [← classifyAddress_eq_line1_iff, ← classifyAddress_eq_line2_iff]
  cases classifyAddress a <;> simp

/-- Settles O53: one equivalence for each line; the codes are `lineCode`'s own (D15). -/
theorem lineOfAnAddress : Obligations.LineOfAnAddress :=
  fun a => ⟨classifyAddress_eq_line1_iff a, classifyAddress_eq_line2_iff a, classifyAddress_eq_unknown_iff a,
    fun _ => ⟨rfl, rfl, rfl⟩⟩

end Sys2Proof.Machine
end

section
/-! SUPPORT. From a position of an operation to its end: one rule for each kind of position, for the run that acceptance
makes and for the small steps at once (R25, log 1). The end of an operation is then read off its pseudocode, whatever the
number of busy polls at each of its ready-waits. -/

namespace Sys2Proof.Machine

/-- Only a selector with rw = 1 decodes to a read (R99). -/
theorem rw_of_decodeSelector {i : Instr} {sel : BitVec 2} (h : decodeSelector sel = .ok i) : sel[0] = true := by
  unfold decodeSelector at h
  split_ifs at h with hstatus hdata
  · rw [eq_of_beq hstatus]
    rfl
  · rw [eq_of_beq hdata]
    rfl

/-! What acts besides the operation's own positions. -/

/-- Nothing but an operation's own positions acts on the block: no reset, no response pulse left to end, no bound on the
polls, and the bus at rest (R33). -/
structure State.Undisturbed (s : State) : Prop where
  rst : s.rst = false
  rsp : s.rsp = none
  unbounded : s.params.maxPolls = none
  atRest : s.atRest = true

namespace State.Undisturbed

variable {s : State}

/-- A block that accepts an operation is undisturbed when no reset is asserted and the polls are not bounded. -/
theorem of_accepts (hs : s.Accepts) (hrst : s.rst = false) (hbound : s.params.maxPolls = none) :
    s.clearResponse.Undisturbed :=
  ⟨hrst, rfl, hbound, hs.rest⟩

theorem afterRead (h : s.Undisturbed) (rs : Bool) (v : Byte) (env : Env) : (s.afterRead rs v env).Undisturbed :=
  ⟨h.rst, h.rsp, h.unbounded, rfl⟩

theorem setSampled (h : s.Undisturbed) (v : Byte) : (s.setSampled v).Undisturbed :=
  ⟨h.rst, h.rsp, h.unbounded, h.atRest⟩

theorem afterWrite (h : s.Undisturbed) (w : Word10) (env : Env) : (s.afterWrite w env).Undisturbed :=
  ⟨h.rst, h.rsp, h.unbounded, rfl⟩

theorem delay (h : s.Undisturbed) (k : Wait) : (s.delay k).Undisturbed :=
  ⟨h.rst, h.rsp, h.unbounded, h.atRest⟩

theorem afterPolls (h : s.Undisturbed) (vs : List Byte) (env : Env) : (s.afterPolls vs env).Undisturbed := by
  induction vs generalizing s with
  | nil => exact h
  | cons v vs ih => exact ih (h.afterRead false v env)

/-- Before a ready-wait, an undisturbed operation is `AtWait`. -/
theorem atWait (h : s.Undisturbed) (op : Instr) (polls : Nat) (rest : List Action) :
    (s.setSeq (.running op (.awaitReady polls :: rest))).AtWait op polls rest :=
  ⟨rfl, h.rst, h.rsp, h.atRest⟩

/-- A step of an undisturbed operation fetches its position. -/
theorem fetch_running (h : s.Undisturbed) (op : Instr) (todo : List Action) :
    fetch (s.setSeq (.running op todo)) = fetchPosition op todo (s.setSeq (.running op todo)) := by
  have hclear : (s.setSeq (.running op todo)).clearResponse = s.setSeq (.running op todo) :=
    congrArg (fun r => { s.setSeq (.running op todo) with rsp := r }) h.rsp.symm
  simp only [fetch, hclear, State.setSeq_rst, h.rst, Bool.false_eq_true, if_false, State.setSeq_seq]

/-- Where a poll shows busy, the run stops as the small step of that poll does (R131, log 1). -/
theorem runActions_eq_step (h : s.Undisturbed) {op : Instr} {rest : List Action} {v : Byte} {env : Env}
    (hv : s.env.AnswersBusy v env) :
    runActions op (.awaitReady 0 :: rest) s = step (s.setSeq (.running op (.awaitReady 0 :: rest))) := by
  have hpoll : act (.awaitReady 0) s = .waiting (.awaitReady 0) (s.afterRead false v env) :=
    (pollOnce_busy 0 h.atRest hv).trans (afterBusyPoll_unbounded 0 h.unbounded)
  rw [runActions_waiting hpoll, (h.atWait op 0 rest).step_busy hv (by simp [h.unbounded]), State.setSeq_params,
    h.unbounded]
  rfl

end State.Undisturbed

/-! The rules. -/

/-- The operation, before the positions `todo`, comes to its end in `t`: by the run of them that acceptance makes and the
small steps after it, and by small steps alone (R25, log 1). -/
def State.EndsIn (s : State) (op : Instr) (todo : List Action) (t : State) : Prop :=
  (∃ k, thenSteps k (runActions op todo s) = .next t) ∧ ∃ k, runSteps k (s.setSeq (.running op todo)) = .next t

/-- What acceptance leaves to be shown. -/
theorem exec_of_endsIn {i : Instr} {s t : State} (hop : i.isOperation = true) (hinit : i ≠ .initializeDisplay)
    (hs : s.Accepts) (hend : s.clearResponse.EndsIn i (program s.strPops i) t) :
    ∃ k, thenSteps k (exec i s) = .next t := by
  rw [exec_of_accepts hop hinit hs]
  exact hend.1

namespace State.EndsIn

variable {s t u : State} {op : Instr} {rest : List Action}

/-- A return is the end. -/
theorem respond (h : s.Undisturbed) (r : Reply) : s.EndsIn op [.respond r] (s.complete (r.result s.sampled)) :=
  ⟨⟨0, rfl⟩, 1, runSteps_succ_of_step rfl (step_respond h.rst rfl)⟩

/-- A position from which the run and a small step both go on, to the same state. -/
theorem onward {a : Action} (hact : act a s = .onward u)
    (hstep : step (s.setSeq (.running op (a :: rest))) = .next (u.setSeq (.running op rest)))
    (hend : u.EndsIn op rest t) : s.EndsIn op (a :: rest) t := by
  obtain ⟨hrun, k, hsteps⟩ := hend
  refine ⟨?_, k + 1, ?_⟩
  · rwa [runActions_onward hact]
  · rwa [runSteps_succ, hstep]

/-- A wait. -/
theorem delay (h : s.Undisturbed) {k : Wait} (hend : (s.delay k).EndsIn op rest t) :
    s.EndsIn op (.delay k :: rest) t := by
  refine onward rfl ?_ hend
  simp only [step, h.fetch_running, fetchPosition, runOneAction, act]
  rfl

/-- A write transaction that the environment takes. -/
theorem write (h : s.Undisturbed) {j : Instr} {w : Word10} {env : Env} (hj : encode j = .word w)
    (henv : s.env.write w = .ok env) (hend : (s.afterWrite w env).EndsIn op rest t) :
    s.EndsIn op (.write w :: rest) t := by
  refine onward (act_write h.atRest (Laws.WordRwClear.all j w hj) henv) ?_ hend
  simp only [step, h.fetch_running, fetchPosition, fetchTransaction, decode, decodeWord_of_encode hj]
  exact exec_of_encode_word (s := s.setSeq (.running op rest)) hj h.atRest henv

/-- A read transaction that the environment answers. -/
theorem read (h : s.Undisturbed) {j : Instr} {sel : BitVec 2} {v : Byte} {env : Env}
    (hj : decodeSelector sel = .ok j) (henv : s.env.read sel[1] = .ok (v, env))
    (hend : ((s.afterRead sel[1] v env).setSampled v).EndsIn op rest t) : s.EndsIn op (.read sel :: rest) t := by
  have hrw := rw_of_decodeSelector hj
  refine onward (act_read h.atRest hrw henv) ?_ hend
  simp only [step, h.fetch_running, fetchPosition, fetchTransaction, decode, hj,
    exec_selector (encode_of_decodeSelector hj), hrw]
  exact readTransaction_eq (s := s.setSeq (.running op rest)) h.atRest henv

/-- A ready-wait with any number of busy polls before the ready one (R131). With none the run goes on; else it stops at
the first, which is the first of the small steps. -/
theorem awaitReady (h : s.Undisturbed) {busy : List Byte} {mid : Env} {v : Byte} {env : Env}
    (hbusy : Env.BusyFor busy s.env mid) (hv : mid.AnswersReady v env)
    (hend : (s.afterPolls (busy ++ [v]) env).EndsIn op rest t) : s.EndsIn op (.awaitReady 0 :: rest) t := by
  obtain ⟨hrun, k, hsteps⟩ := hend
  have hpolls := (h.atWait op 0 rest).runSteps_ready hbusy (fun m hm => absurd (h.unbounded.symm.trans hm) nofun) hv
  rw [State.setSeq_afterPolls] at hpolls
  have hsmall : runSteps (busy.length + k + 1) (s.setSeq (.running op (.awaitReady 0 :: rest))) = .next t := by
    rw [Nat.add_right_comm, runSteps_add hpolls k]
    exact hsteps
  refine ⟨?_, _, hsmall⟩
  cases busy with
  | nil =>
    cases hbusy
    rwa [runActions_onward (act_awaitReady_ready 0 h.atRest hv)]
  | cons b bs =>
    obtain ⟨env', hb, -⟩ := hbusy
    rw [runSteps_succ, ← h.runActions_eq_step hb] at hsmall
    exact ⟨_, hsmall⟩

end State.EndsIn

end Sys2Proof.Machine
end

section
/-! SUPPORT. The reads of the address counter (R163, R164): the ready-wait, the settle wait and one more status read. -/

namespace Sys2Proof.Machine

section

variable {i : Instr} {r : Reply} {s : State} {v₁ v₂ : Byte} {env₁ env₂ : Env}

/-- Ready at the first poll: the whole of `readCounterActions` in one run. -/
theorem runActions_readCounter (hr : s.atRest = true) (hv : s.env.AnswersReady v₁ env₁)
    (henv : env₁.read false = .ok (v₂, env₂)) :
    runActions i (readCounterActions r) s = .next
      ((((s.afterRead false v₁ env₁).delay .addressSettle).afterRead false v₂ env₂).complete (r.result v₂)) := by
  have hread := act_read (s := (s.afterRead false v₁ env₁).delay .addressSettle) (sel := selectorStatus) rfl rfl henv
  rw [readCounterActions, runActions_onward (act_awaitReady_ready 0 hr hv), runActions_onward rfl,
    runActions_onward hread]
  exact runActions_ended rfl

/-- Any number of busy polls first: the read comes to its end in a number of steps. -/
theorem endsIn_readCounter (h : s.Undisturbed) {busy : List Byte} {mid : Env} (hbusy : Env.BusyFor busy s.env mid)
    (hv : mid.AnswersReady v₁ env₁) (henv : env₁.read false = .ok (v₂, env₂)) :
    s.EndsIn i (readCounterActions r)
      ((((s.afterPolls (busy ++ [v₁]) env₁).delay .addressSettle).afterRead false v₂ env₂).complete
        (r.result v₂)) := by
  have hpolled := h.afterPolls (busy ++ [v₁]) env₁
  have hsettled := hpolled.delay .addressSettle
  have hsampled := (hsettled.afterRead false v₂ env₂).setSampled v₂
  have hread : ((s.afterPolls (busy ++ [v₁]) env₁).delay .addressSettle).env.read false = .ok (v₂, env₂) := by
    simpa using henv
  exact .awaitReady h hbusy hv (.delay hpolled (.read (sel := selectorStatus) hsettled rfl hread (.respond hsampled r)))

end

/-- Settles O23: the pseudocode is that of the address counter's reads, with the line as its reply. -/
theorem getCurrentLineClassifiesTheCounter : Obligations.GetCurrentLineClassifiesTheCounter := by
  have hinit : Instr.getCurrentLine ≠ .initializeDisplay := nofun
  refine ⟨refusedOutsideReady rfl hinit, ?_, ?_⟩
  · intro s v₁ v₂ env₁ env₂ hs hv henv
    exact (exec_of_accepts rfl hinit hs).trans (runActions_readCounter (r := .displayLine) hs.rest hv henv)
  · intro s busy mid v₁ v₂ env₁ env₂ hs hrst hbound hbusy hv henv
    exact exec_of_endsIn rfl hinit hs
      (endsIn_readCounter (r := .displayLine) (.of_accepts hs hrst hbound) hbusy hv henv)

end Sys2Proof.Machine
end

section
/-! SUPPORT. A sequence of words, each after its own ready-wait (R140), and the repeated shifts (R165, R166). -/

namespace Sys2Proof.Machine

/-- The environment that a sequence of words leaves may stand there from the start. -/
theorem State.setEnv_afterSends {s : State} {sends : List (Byte × Word10)} {env : Env}
    (h : Env.Sends sends s.env env) : (s.setEnv env).afterSends sends env = s.afterSends sends env := by
  cases sends with
  | nil =>
    cases h
    rfl
  | cons x rest => rfl

/-- The same with busy polls. -/
theorem State.setEnv_afterGroups {s : State} {groups : List (List Byte × Byte × Word10)} {env : Env}
    (h : Env.SendsAfter groups s.env env) : (s.setEnv env).afterGroups groups env = s.afterGroups groups env := by
  cases groups with
  | nil =>
    cases h
    rfl
  | cons g rest =>
    simp only [State.afterGroups, List.foldl_cons, ← s.setEnv_afterPolls _ env env]
    rfl

/-- Every first poll shows ready: the whole sequence in one run. -/
theorem runActions_sendWords {op : Instr} {s : State} {sends : List (Byte × Word10)} {env : Env}
    (hj : ∀ x ∈ sends, ∃ j, encode j = .word x.2) (hr : s.atRest = true) (h : Env.Sends sends s.env env) :
    runActions op (sendWords (sends.map fun x => x.2) ++ [.respond .nothing]) s =
      .next ((s.afterSends sends env).complete .nothing) := by
  rw [← State.setEnv_afterSends h]
  induction sends generalizing s with
  | nil =>
    cases h
    rfl
  | cons x rest ih =>
    obtain ⟨polled, taken, hv, hw, hrest⟩ := h
    obtain ⟨⟨j, hjx⟩, hjs⟩ := List.forall_mem_cons.mp hj
    have hwrite : act (.write x.2) (s.afterRead false x.1 polled) = .onward (s.afterSend x.1 x.2 polled taken) :=
      act_write rfl (Laws.WordRwClear.all j x.2 hjx) hw
    rw [List.map_cons, sendWords, List.cons_append, List.cons_append,
      runActions_onward (act_awaitReady_ready 0 hr hv), runActions_onward hwrite]
    exact ih hjs rfl hrest

/-- Any number of busy polls before each word: the sequence comes to its end in a number of steps. -/
theorem endsIn_sendWords {op : Instr} {s : State} {groups : List (List Byte × Byte × Word10)} {env : Env}
    (hj : ∀ g ∈ groups, ∃ j, encode j = .word g.2.2) (hs : s.Undisturbed) (h : Env.SendsAfter groups s.env env) :
    s.EndsIn op (sendWords (groups.map fun g => g.2.2) ++ [.respond .nothing])
      ((s.afterGroups groups env).complete .nothing) := by
  rw [← State.setEnv_afterGroups h]
  induction groups generalizing s with
  | nil =>
    cases h
    exact .respond hs .nothing
  | cons g rest ih =>
    obtain ⟨busy, v, w⟩ := g
    obtain ⟨mid, polled, taken, hbusy, hv, hw, hrest⟩ := h
    obtain ⟨⟨j, hjw⟩, hjs⟩ := List.forall_mem_cons.mp hj
    have hpolled := hs.afterPolls (busy ++ [v]) polled
    have hend := ih hjs (hpolled.afterWrite w taken) hrest
    rw [State.afterGroups, List.foldl_cons, ← s.setEnv_afterPolls _ polled env]
    exact .awaitReady hs hbusy hv (.write hpolled hjw (by simpa using hw) hend)

/-! One word over and over. -/

section

variable {i j : Instr} {w : Word10} {s : State} {env : Env}

/-- An operation whose pseudocode is one word over and over: at once when every first poll shows ready. -/
theorem exec_repeatedWord {polls : List Byte} (hop : i.isOperation = true) (hinit : i ≠ .initializeDisplay)
    (hj : encode j = .word w)
    (hprog : program s.strPops i = sendWords (List.replicate polls.length w) ++ [.respond .nothing]) (hs : s.Accepts)
    (h : Env.Sends (polls.map fun v => (v, w)) s.env env) :
    exec i s = .next ((s.clearResponse.afterSends (polls.map fun v => (v, w)) env).complete .nothing) := by
  have hwords : (polls.map fun v => (v, w)).map (fun x => x.2) = List.replicate polls.length w := by
    simp [Function.comp_def]
  rw [exec_of_accepts hop hinit hs, hprog, ← hwords]
  exact runActions_sendWords (List.forall_mem_map.mpr fun _ _ => ⟨j, hj⟩) hs.rest h

/-- The same after any number of busy polls before each word, in a number of steps. -/
theorem thenSteps_exec_repeatedWord {polls : List (List Byte × Byte)} (hop : i.isOperation = true)
    (hinit : i ≠ .initializeDisplay) (hj : encode j = .word w)
    (hprog : program s.strPops i = sendWords (List.replicate polls.length w) ++ [.respond .nothing]) (hs : s.Accepts)
    (hrst : s.rst = false) (hbound : s.params.maxPolls = none)
    (h : Env.SendsAfter (polls.map fun g => (g.1, g.2, w)) s.env env) :
    ∃ k, thenSteps k (exec i s) = .next
      ((s.clearResponse.afterGroups (polls.map fun g => (g.1, g.2, w)) env).complete .nothing) := by
  have hwords : (polls.map fun g => (g.1, g.2, w)).map (fun x => x.2.2) = List.replicate polls.length w := by
    simp [Function.comp_def]
  refine exec_of_endsIn hop hinit hs ?_
  rw [hprog, ← hwords]
  exact endsIn_sendWords (List.forall_mem_map.mpr fun _ _ => ⟨j, hj⟩) (.of_accepts hs hrst hbound) h

end

/-- Settles O26: both operations repeat the word of one `wShift`, right or left. -/
theorem repeatedShiftsSendNWords : Obligations.RepeatedShiftsSendNWords := by
  have hright (n : Nat) : Instr.shiftDisplayRight n ≠ .initializeDisplay := nofun
  have hleft (n : Nat) : Instr.shiftDisplayLeft n ≠ .initializeDisplay := nofun
  have hjr : encode (.wShift true true) = .word 0x01C#10 := rfl
  have hjl : encode (.wShift true false) = .word 0x018#10 := rfl
  refine ⟨fun n => ⟨refusedOutsideReady rfl (hright n), refusedOutsideReady rfl (hleft n)⟩, ?_, ?_⟩
  · intro s polls env' hs
    exact ⟨exec_repeatedWord rfl (hright _) hjr rfl hs, exec_repeatedWord rfl (hleft _) hjl rfl hs⟩
  · intro s polls env' hs hrst hbound
    exact ⟨thenSteps_exec_repeatedWord rfl (hright _) hjr rfl hs hrst hbound,
      thenSteps_exec_repeatedWord rfl (hleft _) hjl rfl hs hrst hbound⟩

end Sys2Proof.Machine
end

section
/-! SUPPORT. A string (R181): each byte is taken with its pulse of str_pop (R32), and its data word sent after its own
ready-wait. The count of the pulses plays no part in what the transactions leave, so it is set once for all. -/

namespace Sys2Proof.Machine

/-! The bytes. -/

/-- The bytes of a string, by their number (log 13). -/
theorem stringBytes_eq_map_stringByte (len : Nat) (text : List Byte) (pops : Nat) :
    stringBytes len text pops = (List.range len).map (stringByte text pops) := by
  induction len generalizing text pops with
  | zero => rfl
  | succ len ih =>
    rw [List.range_succ_eq_map, List.map_cons, List.map_map]
    have hpulse (j : Nat) : pops + 1 + j = pops + (j + 1) := Nat.succ_add_eq_add_succ pops j
    cases text <;> simp [stringBytes, ih, stringByte, hpulse]

/-- The pseudocode of a string whose bytes are these. -/
theorem program_writeString {text bytes : List Byte} {pops len : Nat}
    (h : bytes = (List.range len).map (stringByte text pops)) :
    program pops (.writeString len text) = sendBytes bytes ++ [.respond .nothing] := by
  rw [h, ← stringBytes_eq_map_stringByte]
  rfl

/-! The count of str_pop. -/

/-- The state with another count of str_pop. -/
def State.setStrPops (s : State) (n : Nat) : State := { s with strPops := n }

/-- Whether the count is set before a sequence of words or after it makes no difference. -/
theorem State.setStrPops_afterSends (s : State) (n : Nat) (sends : List (Byte × Word10)) (env : Env) :
    (s.setStrPops n).afterSends sends env = (s.afterSends sends env).setStrPops n :=
  List.foldl_hom (State.setStrPops · n) fun _ _ => rfl

/-- The same of a run of polls. -/
theorem State.setStrPops_afterPolls (s : State) (n : Nat) (vs : List Byte) (env : Env) :
    (s.setStrPops n).afterPolls vs env = (s.afterPolls vs env).setStrPops n :=
  List.foldl_hom (State.setStrPops · n) fun _ _ => rfl

/-- The same of a sequence of words, each after its own polls. -/
theorem State.setStrPops_afterGroups (s : State) (n : Nat) (groups : List (List Byte × Byte × Word10)) (env : Env) :
    (s.setStrPops n).afterGroups groups env = (s.afterGroups groups env).setStrPops n :=
  List.foldl_hom (State.setStrPops · n) fun t g => by
    rw [t.setStrPops_afterPolls]
    rfl

/-! The rules of the position that takes a byte. -/

theorem State.Undisturbed.takeByte {s : State} (h : s.Undisturbed) : s.takeByte.Undisturbed :=
  ⟨h.rst, h.rsp, h.unbounded, h.atRest⟩

/-- The taking of a byte. -/
theorem State.EndsIn.takeByte {s t : State} {op : Instr} {rest : List Action} (h : s.Undisturbed)
    (hend : s.takeByte.EndsIn op rest t) : s.EndsIn op (.takeByte :: rest) t := by
  refine .onward rfl ?_ hend
  simp only [step, h.fetch_running, fetchPosition, runOneAction, act]
  rfl

/-! The string. -/

/-- The first word of a sequence split off; the environments before the last do not count. -/
theorem State.setEnv_afterGroups_cons {s : State} {busy : List Byte} {v : Byte} {w : Word10}
    {rest : List (List Byte × Byte × Word10)} {mid taken env : Env} :
    (s.setEnv env).afterGroups ((busy, v, w) :: rest) env =
      (((s.afterPolls (busy ++ [v]) mid).afterWrite w taken).setEnv env).afterGroups rest env := by
  rw [State.afterGroups, List.foldl_cons, ← s.setEnv_afterPolls _ mid env]
  rfl

/-- Every first poll shows ready: the whole string in one run. -/
theorem runActions_sendBytes {op : Instr} {s : State} {sends : List (Byte × Byte)} {env : Env} (hr : s.atRest = true)
    (h : Env.Sends (sends.map fun x => (x.1, wordData x.2)) s.env env) :
    runActions op (sendBytes (sends.map fun x => x.2) ++ [.respond .nothing]) s =
      .next (((s.setStrPops (s.strPops + sends.length)).afterSends (sends.map fun x => (x.1, wordData x.2))
        env).complete .nothing) := by
  rw [← State.setEnv_afterSends (s := s.setStrPops (s.strPops + sends.length)) h]
  induction sends generalizing s with
  | nil =>
    cases h
    rfl
  | cons x rest ih =>
    obtain ⟨polled, taken, hv, hw, hrest⟩ := h
    have hwrite : act (.write (wordData x.2)) (s.takeByte.afterRead false x.1 polled) =
        .onward (s.takeByte.afterSend x.1 (wordData x.2) polled taken) :=
      act_write rfl (Laws.WordRwClear.all (.wData x.2) _ rfl) hw
    rw [List.map_cons, sendBytes, List.cons_append, List.cons_append, List.cons_append, runActions_onward rfl,
      runActions_onward (act_awaitReady_ready (s := s.takeByte) 0 hr hv), runActions_onward hwrite, ih rfl hrest,
      List.length_cons, ← Nat.succ_add_eq_add_succ]
    rfl

/-- Any number of busy polls before each byte's word: the string comes to its end in a number of steps. -/
theorem endsIn_sendBytes {op : Instr} {s : State} {groups : List (List Byte × Byte × Byte)} {env : Env}
    (hs : s.Undisturbed) (h : Env.SendsAfter (groups.map fun g => (g.1, g.2.1, wordData g.2.2)) s.env env) :
    s.EndsIn op (sendBytes (groups.map fun g => g.2.2) ++ [.respond .nothing])
      (((s.setStrPops (s.strPops + groups.length)).afterGroups (groups.map fun g => (g.1, g.2.1, wordData g.2.2))
        env).complete .nothing) := by
  rw [← State.setEnv_afterGroups (s := s.setStrPops (s.strPops + groups.length)) h]
  induction groups generalizing s with
  | nil =>
    cases h
    exact .respond hs .nothing
  | cons g rest ih =>
    obtain ⟨busy, v, b⟩ := g
    obtain ⟨mid, polled, taken, hbusy, hv, hw, hrest⟩ := h
    have hpolled := hs.takeByte.afterPolls (busy ++ [v]) polled
    have hend := ih (hpolled.afterWrite (wordData b) taken) hrest
    have htaken : s.takeByte.afterPolls (busy ++ [v]) polled =
        (s.afterPolls (busy ++ [v]) polled).setStrPops (s.strPops + 1) := s.setStrPops_afterPolls ..
    rw [List.map_cons, List.map_cons, State.setEnv_afterGroups_cons (mid := polled) (taken := taken),
      State.setStrPops_afterPolls, List.length_cons, ← Nat.succ_add_eq_add_succ]
    refine .takeByte hs (.awaitReady hs.takeByte hbusy hv (.write (j := .wData b) hpolled rfl (by simpa using hw) ?_))
    rwa [htaken] at hend ⊢

/-- Settles O27: the bytes the string takes are those of the statement, and its words are their data words. -/
theorem writeStringSendsEveryByte : Obligations.WriteStringSendsEveryByte := by
  have hinit (len : Nat) (text : List Byte) : Instr.writeString len text ≠ .initializeDisplay := nofun
  simp only [Obligations.WriteStringSendsEveryByte, ← wordData_eq]
  refine ⟨fun len text => refusedOutsideReady rfl (hinit len text), ?_, ?_⟩
  · intro s text sends env' hs hbytes h
    rw [exec_of_accepts rfl (hinit _ _) hs, program_writeString hbytes]
    have hrun := runActions_sendBytes (op := .writeString sends.length text) (s := s.clearResponse) hs.rest h
    rwa [State.setStrPops_afterSends] at hrun
  · intro s text sends env' hs hrst hbound hbytes h
    refine exec_of_endsIn rfl (hinit _ _) hs ?_
    rw [program_writeString hbytes]
    have hend := endsIn_sendBytes (op := .writeString sends.length text) (.of_accepts hs hrst hbound) h
    rwa [State.setStrPops_afterGroups] at hend

end Sys2Proof.Machine
end

section
/-! SUPPORT. Encodings (30_encoding.md): the decoder gives every well-formed instruction back, and reads nothing that is
not an encoding. -/

namespace Sys2Proof.Machine

/-- Settles O8: a word with fields by `decodeWord_of_encode`; a string has as many bytes as its length says; everything
else is read back by evaluation. -/
theorem decodeOfEncodeIsTheInstruction : Obligations.DecodeOfEncodeIsTheInstruction := by
  intro i hwf
  cases i with
  | wEntry x y => exact decodeWord_of_encode rfl
  | wDispctl d c b => exact decodeWord_of_encode rfl
  | wShift sh d => exact decodeWord_of_encode rfl
  | wFuncset l n f => exact decodeWord_of_encode rfl
  | wSetcg a => exact decodeWord_of_encode rfl
  | wSetdd a => exact decodeWord_of_encode rfl
  | wData v => exact decodeWord_of_encode rfl
  | writeString len text =>
    have hlen : text.length = len := by simpa [Instr.wellFormed] using hwf
    simp [encode, countedCommand, decode, decodeCommand, ← hlen]
  | _ => rfl

/-- Settles O9: the two halves of the decoder, by what each accepts. -/
theorem acceptedEncodingsAreExact : Obligations.AcceptedEncodingsAreExact :=
  ⟨fun _ _ => encode_of_decodeWord, fun _ _ => encode_of_decodeSelector⟩

/-- Settles O10: closed words and selectors, evaluated. -/
theorem sampleWordsDecode : Obligations.SampleWordsDecode := by
  unfold Obligations.SampleWordsDecode
  decide

/-- A reserved code is rejected (R100): it is none of the twenty the decoder lists. -/
theorem decodeCommand_reserved {k : Command} (h : 20 ≤ k.op.toNat) :
    decodeCommand k = .error (.reservedOperation k.op) := by
  obtain ⟨n, hn⟩ := Nat.exists_eq_add_of_le' h
  rw [decodeCommand, hn]
  rfl

end Sys2Proof.Machine
end

section
/-! SUPPORT. The step (R25, R32, R230): one equation for each way a step can go, and what a step that answers a next
state did, with an accepted operation as a run of its program. -/

namespace Sys2Proof.Machine

/-! One equation for each way a step can go. -/

/-- The response pulse is over before anything else of the step (R32). -/
theorem step_clearResponse (s : State) : step s.clearResponse = step s := rfl

/-- rst comes first (R230, R231). -/
theorem fetch_rst {s : State} (hrst : s.rst = true) : fetch s = .answer (takeReset s.clearResponse) := by
  simp only [fetch, State.clearResponse_rst, hrst, if_true]

theorem step_rst {s : State} (hrst : s.rst = true) : step s = takeReset s.clearResponse := by
  simp only [step, fetch_rst hrst]

/-- An idle block with no reset looks at the command port (R32). -/
theorem fetch_idle {s : State} (hrst : s.rst = false) (hq : s.seq = .idle) :
    fetch s = fetchCommand s.clearResponse := by
  simp only [fetch, State.clearResponse_rst, hrst, Bool.false_eq_true, if_false, State.clearResponse_seq, hq]

/-- With no operation presented it waits. -/
theorem step_wait {s : State} (hrst : s.rst = false) (hq : s.seq = .idle) (hh : s.host = []) :
    step s = .next s.clearResponse := by
  simp only [step, fetch_idle hrst hq, fetchCommand, State.clearResponse_host, hh]

/-- With one presented it decodes it, and runs it or rejects it. -/
theorem step_command {s : State} {k : Command} {rest : List Command} {i : Instr} (hrst : s.rst = false)
    (hq : s.seq = .idle) (hh : s.host = k :: rest) (hd : decodeCommand k = .ok i) :
    step s = exec i (s.clearResponse.setHost rest) := by
  simp only [step, fetch_idle hrst hq, fetchCommand, State.clearResponse_host, hh, decode, hd]

theorem step_command_rejected {s : State} {k : Command} {rest : List Command} {why : Reject} (hrst : s.rst = false)
    (hq : s.seq = .idle) (hh : s.host = k :: rest) (hd : decodeCommand k = .error why) :
    step s = .refused (.rejected why) := by
  simp only [step, fetch_idle hrst hq, fetchCommand, State.clearResponse_host, hh, decode, hd]

/-- A running operation with no reset goes on from its position (R25). -/
theorem fetch_running {s : State} {op : Instr} {todo : List Action} (hrst : s.rst = false)
    (hq : s.seq = .running op todo) : fetch s = fetchPosition op todo s.clearResponse := by
  simp only [fetch, State.clearResponse_rst, hrst, Bool.false_eq_true, if_false, State.clearResponse_seq, hq]

/-- Its transactions are fetched and decoded (R235). -/
theorem step_transaction {s : State} {op i : Instr} {a : Action} {rest : List Action} {x : Encoded}
    (hrst : s.rst = false) (hq : s.seq = .running op (a :: rest))
    (ha : ∀ t, fetchPosition op (a :: rest) t = fetchTransaction x op rest t) (hd : decode x = .ok i) :
    step s = exec i (s.clearResponse.setSeq (.running op rest)) := by
  simp only [step, fetch_running hrst hq, ha, fetchTransaction, hd]

/-! What a step did. -/

/-- What a step that answers a next state did: a reset, a wait, the acceptance of an operation with the run of its
program, or one position of the operation in flight. -/
theorem step_cases {s t : State} (h : step s = .next t) :
    (s.rst = true ∧ s.seq = .idle ∧ t = s.clearResponse.blockReset) ∨
    (s.seq = .idle ∧ t = s.clearResponse) ∨
    (∃ k rest i, s.rst = false ∧ s.seq = .idle ∧ s.host = k :: rest ∧ decode (.command k) = .ok i ∧
      i.isOperation = true ∧ (i ≠ .initializeDisplay → s.phase = .ready) ∧
      runActions i (program s.strPops i) (s.clearResponse.setHost rest) = .next t) ∨
    (∃ op todo, s.rst = false ∧ s.seq = .running op todo ∧ runOneAction op todo s.clearResponse = .next t) := by
  cases hq : s.seq with
  | running op todo =>
    refine .inr (.inr (.inr ⟨op, todo, ?_, rfl, step_running hq h⟩))
    cases hrst : s.rst with
    | false => rfl
    | true => simp [step_rst hrst, takeReset, hq] at h
  | idle =>
    rcases step_next h with ⟨hrst, -, rfl⟩ | ⟨-, -, -, rfl⟩ | ⟨k, rest, i, hrst, -, hh, hd, he⟩ |
      ⟨op, w, rest, i, -, hq', -⟩ | ⟨op, sel, rest, i, -, hq', -⟩ | ⟨op, todo, -, hq', -⟩
    · exact .inl ⟨hrst, rfl, rfl⟩
    · exact .inr (.inl ⟨rfl, rfl⟩)
    · have hop := isOperation_of_decodeCommand hd
      obtain ⟨c, hc⟩ := encode_of_isOperation hop
      rcases exec_next he with ⟨-, hrun, -⟩ | ⟨-, -, hready, hrun⟩ | ⟨w, env, hw, -⟩ | ⟨sel, v, env, hsel, -⟩
      · exact absurd hq hrun
      · exact .inr (.inr (.inl ⟨k, rest, i, hrst, rfl, hh, hd, hop, hready, hrun⟩))
      · simp [hc] at hw
      · simp [hc] at hsel
    all_goals simp [hq] at hq'

/-! The statements about reset and the step. -/

/-- Settles O2: the reset of an idle block is `blockReset`, whose fields these are. -/
theorem resetPinPutsTheBlockInItsResetState : Obligations.ResetPinPutsTheBlockInItsResetState := by
  intro s hrst hq
  refine ⟨s.clearResponse.blockReset, ?_, rfl, rfl, rfl, rfl, rfl, rfl, rfl, rfl, rfl, rfl⟩
  simp only [step_rst hrst, takeReset, State.clearResponse_seq, hq]

/-- Settles O3: the two cases of `takeReset`. -/
theorem resetAdmittedOnlyWhenIdle : Obligations.ResetAdmittedOnlyWhenIdle := by
  intro s hrst
  rw [step_rst hrst]
  refine ⟨fun hq => ⟨s.clearResponse.blockReset, ?_⟩, fun op todo hq => ?_⟩ <;>
    simp only [takeReset, State.clearResponse_seq, hq]

/-- Settles O4. -/
theorem idleBlockWaitsForAnOperation : Obligations.IdleBlockWaitsForAnOperation :=
  fun _ hrst hq hh => step_wait hrst hq hh

/-- Settles O5. -/
theorem stepRunsThePresentedOperation : Obligations.StepRunsThePresentedOperation :=
  fun _ _ _ _ hrst hq hh hd => step_command hrst hq hh hd

/-- Settles O6: a word and a selector are the two transactions a position can hold. -/
theorem stepRunsTheSequencersTransaction : Obligations.StepRunsTheSequencersTransaction :=
  fun _ _ _ _ hrst => ⟨fun _ hq hd => step_transaction hrst hq (fun _ => rfl) hd,
    fun _ hq hd => step_transaction hrst hq (fun _ => rfl) hd⟩

/-- Settles O7: each code is a branch of the decoder; a step refuses what the decoder rejects. -/
theorem operationCodes : Obligations.OperationCodes := by
  refine ⟨fun k => ?_, fun s k rest hrst hq hh hk => step_command_rejected hrst hq hh (decodeCommand_reserved hk)⟩
  simp +contextual [decode, decodeCommand]

end Sys2Proof.Machine
end

section
/-! SUPPORT. What a position of the sequencer leaves alone (R25, R112), and with it a run of positions, an instruction
and a step: the frame of every instruction, the bus at rest, hw_fault, and the one response of a completion. -/

namespace Sys2Proof.Machine

/-! The induction over a run, and over one position, with the positions named. -/

/-- A relation that the positions `todo` keep holds between the ends of their run. -/
theorem runActions_induction_mem {R : State → State → Prop} {op : Instr} {todo : List Action}
    (trans : ∀ s t u, R s t → R t u → R s u) (hact : ∀ a ∈ todo, ∀ s t, (act a s).leaves t → R s t)
    (hdone : ∀ s, R s (s.complete .nothing)) (hseq : ∀ s q, R s (s.setSeq q)) {s t : State}
    (h : runActions op todo s = .next t) : R s t := by
  induction todo generalizing s with
  | nil =>
    cases h
    exact hdone s
  | cons a rest ih =>
    obtain ⟨ha, hrest⟩ := List.forall_mem_cons.mp hact
    cases e : act a s with
    | onward u =>
      rw [runActions_onward e] at h
      exact trans _ _ _ (ha s u (.inl e)) (ih hrest h)
    | waiting a' u =>
      rw [runActions_waiting e] at h
      cases h
      exact trans _ _ _ (ha s u (.inr (.inl ⟨a', e⟩))) (hseq u _)
    | ended u =>
      rw [runActions_ended e] at h
      cases h
      exact ha s t (.inr (.inr e))
    | refused r => simp [runActions, e] at h

/-- The same of one position. -/
theorem runOneAction_induction {R : State → State → Prop} {op : Instr} {todo : List Action}
    (trans : ∀ s t u, R s t → R t u → R s u) (hact : ∀ a ∈ todo, ∀ s t, (act a s).leaves t → R s t)
    (hdone : ∀ s, R s (s.complete .nothing)) (hseq : ∀ s q, R s (s.setSeq q)) {s t : State}
    (h : runOneAction op todo s = .next t) : R s t := by
  rcases runOneAction_next h with ⟨-, rfl⟩ | ⟨a, rest, u, rfl, e, rfl⟩ | ⟨a, rest, a', u, rfl, e, rfl⟩ |
    ⟨a, rest, rfl, e⟩
  · exact hdone s
  · exact trans _ _ _ (hact a List.mem_cons_self s u (.inl e)) (hseq u _)
  · exact trans _ _ _ (hact a List.mem_cons_self s u (.inr (.inl ⟨a', e⟩))) (hseq u _)
  · exact hact a List.mem_cons_self s t (.inr (.inr e))

/-! What every position keeps. -/

/-- The frame of a position: parameters, pins and the port are kept, hw_fault is not cleared and not set without a
bound on the polls (R207), and the trace only grows. -/
structure State.Frame (s t : State) : Prop where
  params : t.params = s.params
  rst : t.rst = s.rst
  host : t.host = s.host
  fault : s.hwFault = true → t.hwFault = true
  unbounded : s.params.maxPolls = none → t.hwFault = s.hwFault
  trace : ∃ later, t.trace = s.trace ++ later

namespace State.Frame

variable {s t u : State}

theorem trans (h : s.Frame t) (k : t.Frame u) : s.Frame u where
  params := k.params.trans h.params
  rst := k.rst.trans h.rst
  host := k.host.trans h.host
  fault hs := k.fault (h.fault hs)
  unbounded hs := (k.unbounded (h.params ▸ hs)).trans (h.unbounded hs)
  trace := by
    obtain ⟨es, hes⟩ := h.trace
    obtain ⟨fs, hfs⟩ := k.trace
    exact ⟨es ++ fs, by rw [hfs, hes, List.append_assoc]⟩

/-- A change of other fields. -/
theorem of_fields (hp : t.params = s.params) (hr : t.rst = s.rst) (hh : t.host = s.host) (hf : t.hwFault = s.hwFault)
    (ht : ∃ later, t.trace = s.trace ++ later) : s.Frame t :=
  ⟨hp, hr, hh, fun h => hf.trans h, fun _ => hf, ht⟩

/-- A change of other fields that emits no event. -/
theorem of_silent (hp : t.params = s.params) (hr : t.rst = s.rst) (hh : t.host = s.host) (hf : t.hwFault = s.hwFault)
    (ht : t.trace = s.trace) : s.Frame t :=
  of_fields hp hr hh hf ⟨[], by simp [ht]⟩

theorem refl (s : State) : s.Frame s := of_silent rfl rfl rfl rfl rfl

theorem complete (s : State) (r : Result) : s.Frame (s.complete r) := of_silent rfl rfl rfl rfl rfl

theorem setSeq (s : State) (q : Sequencer) : s.Frame (s.setSeq q) := of_silent rfl rfl rfl rfl rfl

theorem clearResponse (s : State) : s.Frame s.clearResponse := of_silent rfl rfl rfl rfl rfl

theorem afterRead (s : State) (rs : Bool) (v : Byte) (env : Env) : s.Frame (s.afterRead rs v env) :=
  of_fields rfl rfl rfl rfl ⟨_, rfl⟩

theorem afterWrite (s : State) (w : Word10) (env : Env) : s.Frame (s.afterWrite w env) :=
  of_fields rfl rfl rfl rfl ⟨_, rfl⟩

theorem setSampled (s : State) (v : Byte) : s.Frame (s.setSampled v) := of_silent rfl rfl rfl rfl rfl

/-- Giving up is only for a bounded wait. -/
theorem raiseHardwareUnresponsive (hb : s.params.maxPolls ≠ none) : s.Frame s.raiseHardwareUnresponsive :=
  ⟨rfl, rfl, rfl, fun _ => rfl, fun h => absurd h hb, [], (List.append_nil _).symm⟩

end State.Frame

/-- Every position has the frame. -/
theorem act_frame {a : Action} {s t : State} (h : (act a s).leaves t) : s.Frame t := by
  rcases act_leaves h with ⟨p, v, env, -, -, -, ht⟩ | ⟨k, -, rfl⟩ | ⟨-, rfl⟩ | ⟨p, -, rfl⟩ | ⟨-, rfl⟩ |
    ⟨w, env, -, -, -, -, rfl⟩ | ⟨sel, v, env, -, -, -, -, rfl⟩ | ⟨r, -, rfl⟩
  · have hread : s.Frame (s.afterRead false v env) := .afterRead ..
    rcases ht with rfl | ⟨-, hb, rfl⟩
    · exact hread
    · exact hread.trans (.raiseHardwareUnresponsive hb)
  · exact .of_fields rfl rfl rfl rfl ⟨_, rfl⟩
  · exact .of_fields rfl rfl rfl rfl ⟨_, rfl⟩
  · exact .of_silent rfl rfl rfl rfl rfl
  · exact .of_silent rfl rfl rfl rfl rfl
  · exact .afterWrite ..
  · exact .trans (.afterRead ..) (.setSampled ..)
  · exact .complete ..

/-- So has a run of positions. -/
theorem runActions_frame {op : Instr} {todo : List Action} {s t : State} (h : runActions op todo s = .next t) :
    s.Frame t :=
  runActions_induction_mem (fun _ _ _ => .trans) (fun _ _ _ _ => act_frame) (.complete · .nothing) .setSeq h

theorem runOneAction_frame {op : Instr} {todo : List Action} {s t : State} (h : runOneAction op todo s = .next t) :
    s.Frame t :=
  runOneAction_induction (fun _ _ _ => .trans) (fun _ _ _ _ => act_frame) (.complete · .nothing) .setSeq h

/-- And an instruction. -/
theorem exec_frame {i : Instr} {s t : State} (h : exec i s = .next t) : s.Frame t := by
  rcases exec_next h with ⟨-, -, rfl⟩ | ⟨-, -, -, hrun⟩ | ⟨w, env, -, -, -, -, rfl⟩ | ⟨sel, v, env, -, -, -, -, rfl⟩
  · exact .refl _
  · exact (State.Frame.clearResponse s).trans (runActions_frame hrun)
  · exact .afterWrite ..
  · exact .trans (.afterRead ..) (.setSampled ..)

/-! The bus at rest, and hw_fault. -/

/-- A position keeps the bus at rest: a transaction ends with E deasserted and the direction outward (R33, R119). -/
theorem act_atRest {a : Action} {s t : State} (h : (act a s).leaves t) (hs : s.atRest = true) : t.atRest = true := by
  rcases act_leaves h with ⟨p, v, env, -, -, -, ht⟩ | ⟨k, -, rfl⟩ | ⟨-, rfl⟩ | ⟨p, -, rfl⟩ | ⟨-, rfl⟩ |
    ⟨w, env, -, -, -, -, rfl⟩ | ⟨sel, v, env, -, -, -, -, rfl⟩ | ⟨r, -, rfl⟩
  · rcases ht with rfl | ⟨-, -, rfl⟩ <;> rfl
  · exact hs
  · exact hs
  · exact hs
  · exact hs
  · rfl
  · rfl
  · exact hs

/-- Settles O41: besides the positions, only reset moves E or the direction, and puts them at rest. -/
theorem busAtRestBetweenSteps : Obligations.BusAtRestBetweenSteps :=
  ⟨rfl, fun _ _ hrest h =>
    step_induction (R := fun s t => s.atRest = true → t.atRest = true) (fun _ => id) (fun _ _ _ h k hs => k (h hs))
      (fun _ _ _ => act_atRest) (fun _ => id) (fun _ _ => id) (fun _ _ => id) (fun _ => id) (fun _ _ => rfl) h hrest⟩

/-- Under the frame a set hw_fault still means a bound on the polls. -/
theorem State.Frame.faultOnlyBounded {s t : State} (h : s.Frame t) (hs : s.FaultOnlyBounded) : t.FaultOnlyBounded := by
  intro hfault hbound
  rw [h.params] at hbound
  exact hs ((h.unbounded hbound).symm.trans hfault) hbound

/-- Settles O46: a step that is no reset has the frame, up to the port. -/
theorem hardwareFaultIsSticky : Obligations.HardwareFaultIsSticky := by
  intro s t h
  rcases step_cases h with ⟨hrst, -, rfl⟩ | ⟨-, rfl⟩ | ⟨k, rest, i, -, -, -, -, -, -, hrun⟩ | ⟨op, todo, -, -, hrun⟩
  · exact ⟨fun _ hno => absurd (hrst.symm.trans hno) nofun, fun _ => nofun⟩
  · exact ⟨fun hf _ => hf, id⟩
  · have hframe := runActions_frame hrun
    exact ⟨fun hf _ => hframe.fault hf, hframe.faultOnlyBounded⟩
  · have hframe := runOneAction_frame hrun
    exact ⟨fun hf _ => hframe.fault hf, hframe.faultOnlyBounded⟩

/-! The bus, and the response. -/

/-- Settles O40: of the positions of `act_leaves`, a wait and TimingEnable make their own event, and a phase entry, the
taking of a byte and a return make none. -/
theorem onlyTransactionsTouchTheBus : Obligations.OnlyTransactionsTouchTheBus := by
  intro a s t h hpoll hwrite hread
  rcases act_leaves h with ⟨p, v, env, rfl, -⟩ | ⟨k, -, rfl⟩ | ⟨-, rfl⟩ | ⟨p, -, rfl⟩ | ⟨-, rfl⟩ |
    ⟨w, env, rfl, -⟩ | ⟨sel, v, env, rfl, -⟩ | ⟨r, -, rfl⟩
  · exact absurd rfl (hpoll p)
  · exact ⟨rfl, rfl, rfl, rfl, rfl, rfl, .inr (.inl ⟨k, rfl⟩)⟩
  · exact ⟨rfl, rfl, rfl, rfl, rfl, rfl, .inr (.inr rfl)⟩
  · exact ⟨rfl, rfl, rfl, rfl, rfl, rfl, .inl rfl⟩
  · exact ⟨rfl, rfl, rfl, rfl, rfl, rfl, .inl rfl⟩
  · exact absurd rfl (hwrite w)
  · exact absurd rfl (hread sel)
  · exact ⟨rfl, rfl, rfl, rfl, rfl, rfl, .inl rfl⟩

/-- SEQ, the response and the results are as before: the operation has not ended. -/
structure State.SameFlight (s t : State) : Prop where
  seq : t.seq = s.seq
  rsp : t.rsp = s.rsp
  results : t.results = s.results

/-- How an operation goes on from a position, with what becomes of its answer: it moves on, or waits at a ready-wait,
with none; or it ends by a completion; or it is refused. -/
theorem act_flight (a : Action) (s : State) :
    (∃ t, act a s = .onward t ∧ s.SameFlight t) ∨
      (∃ p q t, a = .awaitReady p ∧ act a s = .waiting (.awaitReady q) t ∧ s.SameFlight t) ∨
      (∃ (t : State) (r : Result), act a s = .ended (t.complete r) ∧ t.results = s.results ∧ t.params = s.params) ∨
      ∃ r, act a s = .refused r := by
  cases a with
  | awaitReady p =>
    rcases pollOnce_cases p s with ⟨r, -, e⟩ | ⟨v, env, -, -, e⟩ | ⟨v, env, -, -, e⟩ <;> rw [act, e]
    · exact .inr (.inr (.inr ⟨r, rfl⟩))
    · exact .inl ⟨_, rfl, rfl, rfl, rfl⟩
    · rcases afterBusyPoll_cases p (s.afterRead false v env) with ⟨q, e⟩ | e <;> rw [e]
      · exact .inr (.inl ⟨p, q, _, rfl, rfl, rfl, rfl, rfl⟩)
      · exact .inr (.inr (.inl ⟨_, .unresponsive, rfl, rfl, rfl⟩))
  | write w =>
    cases e : writeTransaction w s with
    | next t =>
      obtain ⟨-, -, env, -, rfl⟩ := writeTransaction_next e
      exact .inl ⟨_, congrArg progressOf e, rfl, rfl, rfl⟩
    | refused r => exact .inr (.inr (.inr ⟨r, congrArg progressOf e⟩))
    | fault f => cases f
  | read sel =>
    cases e : readTransaction sel[1] sel[0] s with
    | next t =>
      obtain ⟨-, -, v, env, -, rfl⟩ := readTransaction_next e
      exact .inl ⟨_, congrArg progressOf e, rfl, rfl, rfl⟩
    | refused r => exact .inr (.inr (.inr ⟨r, congrArg progressOf e⟩))
    | fault f => cases f
  | respond r => exact .inr (.inr (.inl ⟨s, _, rfl, rfl, rfl⟩))
  | _ => exact .inl ⟨_, rfl, rfl, rfl, rfl⟩

/-- The operation moved on: it has not answered. -/
theorem sameFlight_of_onward {a : Action} {s t : State} (h : act a s = .onward t) : s.SameFlight t := by
  rcases act_flight a s with ⟨u, e, hu⟩ | ⟨p, q, u, -, e, -⟩ | ⟨u, r, e, -⟩ | ⟨r, e⟩ <;> rw [e] at h <;> cases h
  exact hu

/-- It waits: at a ready-wait it stood before, and it has not answered. -/
theorem sameFlight_of_waiting {a a' : Action} {s t : State} (h : act a s = .waiting a' t) :
    (∃ p q, a = .awaitReady p ∧ a' = .awaitReady q) ∧ s.SameFlight t := by
  rcases act_flight a s with ⟨u, e, -⟩ | ⟨p, q, u, hp, e, hu⟩ | ⟨u, r, e, -⟩ | ⟨r, e⟩ <;> rw [e] at h <;> cases h
  exact ⟨⟨p, q, hp, rfl⟩, hu⟩

/-- It ended: by a completion. -/
theorem complete_of_ended {a : Action} {s t : State} (h : act a s = .ended t) :
    ∃ (u : State) (r : Result), t = u.complete r ∧ u.results = s.results ∧ u.params = s.params := by
  rcases act_flight a s with ⟨u, e, -⟩ | ⟨p, q, u, -, e, -⟩ | ⟨u, r, e, hu⟩ | ⟨r, e⟩ <;> rw [e] at h <;> cases h
  exact ⟨u, r, rfl, hu⟩

/-- What may become of the answer of the operation in flight: none so far, or one with its code, after which SEQ is idle
(R32). -/
def State.AnswersOnce (s t : State) : Prop :=
  (t.rsp = s.rsp ∧ t.results = s.results) ∨
    ∃ r, t.results = s.results ++ [r] ∧ t.rsp = some (Result.data s.params r) ∧ t.seq = .idle

/-- A completion answers. -/
theorem State.answersOnce_complete {s t : State} (r : Result) (hres : t.results = s.results)
    (hpar : t.params = s.params) : s.AnswersOnce (t.complete r) :=
  .inr ⟨r, congrArg (· ++ [r]) hres, congrArg (fun p => some (r.data p)) hpar, rfl⟩

/-- What has not answered yet may answer afterwards. -/
theorem State.SameFlight.answersOnce {s t u : State} (h : s.SameFlight t) (hpar : t.params = s.params)
    (k : t.AnswersOnce u) : s.AnswersOnce u := by
  rwa [State.AnswersOnce, h.rsp, h.results, hpar] at k

/-- A run of positions answers at most once. -/
theorem runActions_answersOnce {op : Instr} {todo : List Action} {s t : State} (h : runActions op todo s = .next t) :
    s.AnswersOnce t := by
  induction todo generalizing s with
  | nil =>
    cases h
    exact State.answersOnce_complete _ rfl rfl
  | cons a rest ih =>
    cases e : act a s with
    | onward u =>
      rw [runActions_onward e] at h
      exact (sameFlight_of_onward e).answersOnce (act_frame (.inl e)).params (ih h)
    | waiting a' u =>
      rw [runActions_waiting e] at h
      cases h
      obtain ⟨-, hu⟩ := sameFlight_of_waiting e
      exact .inl ⟨hu.rsp, hu.results⟩
    | ended u =>
      rw [runActions_ended e] at h
      cases h
      obtain ⟨u, r, rfl, hres, hpar⟩ := complete_of_ended e
      exact State.answersOnce_complete r hres hpar
    | refused r => simp [runActions, e] at h

/-- So does one position. -/
theorem runOneAction_answersOnce {op : Instr} {todo : List Action} {s t : State}
    (h : runOneAction op todo s = .next t) : s.AnswersOnce t := by
  rcases runOneAction_next h with ⟨-, rfl⟩ | ⟨a, rest, u, -, e, rfl⟩ | ⟨a, rest, a', u, -, e, rfl⟩ | ⟨a, rest, -, e⟩
  · exact State.answersOnce_complete _ rfl rfl
  · have hu := sameFlight_of_onward e
    exact .inl ⟨hu.rsp, hu.results⟩
  · obtain ⟨-, hu⟩ := sameFlight_of_waiting e
    exact .inl ⟨hu.rsp, hu.results⟩
  · obtain ⟨u, r, rfl, hres, hpar⟩ := complete_of_ended e
    exact State.answersOnce_complete r hres hpar

/-- Settles O39: the pulse of the step before is over when the run of a step begins, and the run answers at most once.
-/
theorem oneResponsePerCompletion : Obligations.OneResponsePerCompletion := by
  intro s t h
  rcases step_cases h with ⟨-, -, rfl⟩ | ⟨-, rfl⟩ | ⟨k, rest, i, -, -, -, -, -, -, hrun⟩ | ⟨op, todo, -, -, hrun⟩
  · exact .inl ⟨rfl, rfl⟩
  · exact .inl ⟨rfl, rfl⟩
  · exact runActions_answersOnce hrun
  · exact runOneAction_answersOnce hrun

/-- An operation presented while another runs is not accepted (R206, log 14). -/
theorem exec_of_running {i op : Instr} {todo : List Action} {s : State} (hop : i.isOperation = true)
    (hq : s.seq = .running op todo) : exec i s = .next s := by
  by_cases hinit : i = .initializeDisplay
  · simp only [hinit, exec_initialize, runInAnyPhase, hq]
  · simp only [exec_operation hop hinit, runWhenReady, hq]

/-- Settles O31: a step of a running operation is one position, and no position touches the port. -/
theorem nothingAcceptedWhileRunning : Obligations.NothingAcceptedWhileRunning :=
  fun _ _ _ hq => ⟨fun _ hop => exec_of_running hop hq, fun _ h => (runOneAction_frame (step_running hq h)).host⟩

end Sys2Proof.Machine
end

section
/-! SUPPORT. The pseudocode of every instruction by its positions: which of them can stand in whose. With it, what an
operation leaves alone, and that SEQ and PHASE stay with the pseudocode (R24, R25, R191). -/

namespace Sys2Proof

/-- The instructions that only read the chip (R99, R135, R163, R164, R182). -/
def Instr.readsOnly : Instr → Bool
  | .statusRead | .dataRead | .isBusy | .readAddressCounter | .getCurrentLine | .readByte => true
  | _ => false

/-- The instructions that put the chip on the narrow bus: function set with l = 0 (R89, R243). -/
def Instr.narrowsBus : Instr → Bool
  | .wFuncset l _ _ => !l
  | .functionSet bits _ _ => !Machine.boolOf bits
  | _ => false

end Sys2Proof

namespace Sys2Proof.Machine

/-! Which positions stand in whose pseudocode. -/

/-- What a position of this instruction's pseudocode can be: only initialize touches PHASE and the timing subsystem,
only write-string takes bytes, only a writing instruction writes, and then the word of an instruction; no poll is
counted yet. -/
def Action.AllowedIn (i : Instr) : Action → Prop
  | .enableTiming | .enterPhase _ => i = .initializeDisplay
  | .takeByte => ∃ len text, i = .writeString len text
  | .write w => i.readsOnly = false ∧ ∃ j, encode j = .word w ∧ (j.narrowsBus = true → i.narrowsBus = true)
  | .read sel => ∃ j, decodeSelector sel = .ok j
  | .awaitReady polls => polls = 0
  | .delay _ | .respond _ => True

/-- No poll is counted yet. -/
theorem fresh_of_allowedIn {i : Instr} {a : Action} (h : a.AllowedIn i) : a.fresh = a := by
  cases a with
  | awaitReady polls =>
    cases h
    rfl
  | _ => rfl

/-- The two selectors are those of reads. -/
theorem allowedIn_status (i : Instr) : (Action.read selectorStatus).AllowedIn i := ⟨.statusRead, rfl⟩

theorem allowedIn_data (i : Instr) : (Action.read selectorData).AllowedIn i := ⟨.dataRead, rfl⟩

section
variable {i : Instr}

/-- One word, sent without a wait. -/
theorem allowedIn_word {w : Word10} (hw : (Action.write w).AllowedIn i) :
    ∀ a ∈ [Action.write w, .respond .nothing], a.AllowedIn i := by
  simpa [Action.AllowedIn] using hw

/-- One selector, read without a wait. -/
theorem allowedIn_read {sel : BitVec 2} {r : Reply} (hsel : (Action.read sel).AllowedIn i) :
    ∀ a ∈ [Action.read sel, .respond r], a.AllowedIn i := by
  simpa [Action.AllowedIn] using hsel

/-- Words, each after its own ready-wait (R140, R165). -/
theorem allowedIn_sendWords {ws : List Word10} (hws : ∀ w ∈ ws, (Action.write w).AllowedIn i) :
    ∀ a ∈ sendWords ws ++ [.respond .nothing], a.AllowedIn i := by
  induction ws with
  | nil => simp [sendWords, Action.AllowedIn]
  | cons w ws ih =>
    obtain ⟨hw, hws⟩ := List.forall_mem_cons.mp hws
    exact List.forall_mem_cons.mpr ⟨rfl, List.forall_mem_cons.mpr ⟨hw, ih hws⟩⟩

/-- The common shape of R140. -/
theorem allowedIn_sendWord {w : Word10} (hw : (Action.write w).AllowedIn i) : ∀ a ∈ sendWord w, a.AllowedIn i :=
  allowedIn_sendWords (ws := [w]) (by simpa using hw)

/-- One word over and over. -/
theorem allowedIn_replicate {w : Word10} (n : Nat) (hw : (Action.write w).AllowedIn i) :
    ∀ a ∈ sendWords (List.replicate n w) ++ [.respond .nothing], a.AllowedIn i :=
  allowedIn_sendWords fun _ h => List.eq_of_mem_replicate h ▸ hw

/-- The bytes of a string (R181). -/
theorem allowedIn_sendBytes {len : Nat} {text bytes : List Byte} :
    ∀ a ∈ sendBytes bytes ++ [.respond .nothing], a.AllowedIn (.writeString len text) := by
  induction bytes with
  | nil => simp [sendBytes, Action.AllowedIn]
  | cons b bs ih =>
    have hbyte : (Action.write (wordData b)).AllowedIn (.writeString len text) := ⟨rfl, .wData b, rfl, nofun⟩
    exact List.forall_mem_cons.mpr ⟨⟨len, text, rfl⟩, List.forall_mem_cons.mpr ⟨rfl,
      List.forall_mem_cons.mpr ⟨hbyte, ih⟩⟩⟩

end

/-- initialize (R190): four words, none of which narrows the bus. -/
theorem allowedIn_initialize : ∀ a ∈ initializeActions, a.AllowedIn .initializeDisplay := by
  have hfunc : (Action.write (wordFuncset true true false)).AllowedIn .initializeDisplay :=
    ⟨rfl, .wFuncset true true false, rfl, nofun⟩
  have hdisp : (Action.write (wordDispctl true true false)).AllowedIn .initializeDisplay :=
    ⟨rfl, .wDispctl true true false, rfl, nofun⟩
  have hentry : (Action.write (wordEntry true false)).AllowedIn .initializeDisplay :=
    ⟨rfl, .wEntry true false, rfl, nofun⟩
  have hclear : (Action.write wordClear).AllowedIn .initializeDisplay := ⟨rfl, .wClear, rfl, nofun⟩
  simp only [initializeActions, List.forall_mem_cons]
  exact ⟨rfl, trivial, rfl, rfl, hfunc, rfl, rfl, hdisp, rfl, rfl, hentry, rfl, rfl, hclear, rfl, rfl, trivial, nofun⟩

/-- Every position of every instruction's pseudocode. -/
theorem allowedIn_of_mem_program {pops : Nat} {i : Instr} : ∀ a ∈ program pops i, a.AllowedIn i := by
  cases i with
  | wClear => exact allowedIn_word ⟨rfl, .wClear, rfl, id⟩
  | wHome => exact allowedIn_word ⟨rfl, .wHome, rfl, id⟩
  | wEntry x y => exact allowedIn_word ⟨rfl, .wEntry x y, rfl, id⟩
  | wDispctl d c b => exact allowedIn_word ⟨rfl, .wDispctl d c b, rfl, id⟩
  | wShift sh d => exact allowedIn_word ⟨rfl, .wShift sh d, rfl, id⟩
  | wFuncset l n f => exact allowedIn_word ⟨rfl, .wFuncset l n f, rfl, id⟩
  | wSetcg a => exact allowedIn_word ⟨rfl, .wSetcg a, rfl, id⟩
  | wSetdd a => exact allowedIn_word ⟨rfl, .wSetdd a, rfl, id⟩
  | wData v => exact allowedIn_word ⟨rfl, .wData v, rfl, id⟩
  | statusRead => exact allowedIn_read (allowedIn_status _)
  | dataRead => exact allowedIn_read (allowedIn_data _)
  | clear => exact allowedIn_sendWord ⟨rfl, .wClear, rfl, nofun⟩
  | returnHome => exact allowedIn_sendWord ⟨rfl, .wHome, rfl, nofun⟩
  | entryModeSet increment shift => exact allowedIn_sendWord ⟨rfl, .wEntry _ _, rfl, nofun⟩
  | displayControl display cursor blink => exact allowedIn_sendWord ⟨rfl, .wDispctl _ _ _, rfl, nofun⟩
  | shiftCursor right => exact allowedIn_sendWord ⟨rfl, .wShift _ _, rfl, nofun⟩
  | moveCursor line column => exact allowedIn_sendWord ⟨rfl, .wSetdd _, rfl, nofun⟩
  | getCurrentLine => exact List.forall_mem_cons.mpr ⟨rfl, List.forall_mem_cons.mpr
      ⟨trivial, allowedIn_read (allowedIn_status _)⟩⟩
  | shiftDisplay right => exact allowedIn_sendWord ⟨rfl, .wShift _ _, rfl, nofun⟩
  | shiftDisplayRight n => exact allowedIn_replicate n ⟨rfl, .wShift _ _, rfl, nofun⟩
  | shiftDisplayLeft n => exact allowedIn_replicate n ⟨rfl, .wShift _ _, rfl, nofun⟩
  | functionSet bits lines font => exact allowedIn_sendWord ⟨rfl, .wFuncset _ _ _, rfl, id⟩
  | writeByte byte => exact allowedIn_sendWord ⟨rfl, .wData _, rfl, nofun⟩
  | writeCharacter ch => exact allowedIn_sendWord ⟨rfl, .wData _, rfl, nofun⟩
  | writeString len text => exact allowedIn_sendBytes
  | setCGRAMAddress addr => exact allowedIn_sendWord ⟨rfl, .wSetcg _, rfl, nofun⟩
  | setDDRAMAddress addr => exact allowedIn_sendWord ⟨rfl, .wSetdd _, rfl, nofun⟩
  | isBusy => exact allowedIn_read (allowedIn_status _)
  | readAddressCounter => exact List.forall_mem_cons.mpr ⟨rfl, List.forall_mem_cons.mpr
      ⟨trivial, allowedIn_read (allowedIn_status _)⟩⟩
  | readByte => exact List.forall_mem_cons.mpr ⟨rfl, allowedIn_read (allowedIn_data _)⟩
  | initializeDisplay => exact allowedIn_initialize

/-! What an operation leaves alone. -/

/-- What a position keeps of PHASE, the timing subsystem, the count of str_pop and DB_OUT: each has the one kind of
position that writes it, but that a return leaves all. -/
theorem act_keeps {a : Action} {s t : State} (h : (act a s).leaves t) :
    (a.isPhaseEntry = false → t.phase = s.phase) ∧ (a ≠ .enableTiming → t.timingEnabled = s.timingEnabled) ∧
      (a ≠ .takeByte → t.strPops = s.strPops) ∧ ((∀ w, a ≠ .write w) → t.dbOut = s.dbOut) := by
  rcases act_leaves h with ⟨p, v, env, -, -, -, ht⟩ | ⟨k, -, rfl⟩ | ⟨rfl, rfl⟩ | ⟨p, rfl, rfl⟩ | ⟨rfl, rfl⟩ |
    ⟨w, env, rfl, -, -, -, rfl⟩ | ⟨sel, v, env, -, -, -, -, rfl⟩ | ⟨r, -, rfl⟩
  · rcases ht with rfl | ⟨-, -, rfl⟩ <;> exact ⟨fun _ => rfl, fun _ => rfl, fun _ => rfl, fun _ => rfl⟩
  · exact ⟨fun _ => rfl, fun _ => rfl, fun _ => rfl, fun _ => rfl⟩
  · exact ⟨fun _ => rfl, fun h => absurd rfl h, fun _ => rfl, fun _ => rfl⟩
  · exact ⟨nofun, fun _ => rfl, fun _ => rfl, fun _ => rfl⟩
  · exact ⟨fun _ => rfl, fun _ => rfl, fun h => absurd rfl h, fun _ => rfl⟩
  · exact ⟨fun _ => rfl, fun _ => rfl, fun _ => rfl, fun h => absurd rfl (h w)⟩
  · exact ⟨fun _ => rfl, fun _ => rfl, fun _ => rfl, fun _ => rfl⟩
  · exact ⟨fun _ => rfl, fun _ => rfl, fun _ => rfl, fun _ => rfl⟩

/-- A value of the state that a program's positions, SEQ and a completion leave alone is left alone by its run. -/
theorem runActions_value {α : Type} (f : State → α) {op : Instr} {todo : List Action}
    (hact : ∀ a ∈ todo, ∀ s t, (act a s).leaves t → f t = f s) (hdone : ∀ s, f (s.complete .nothing) = f s)
    (hseq : ∀ s q, f (s.setSeq q) = f s) {s t : State} (h : runActions op todo s = .next t) : f t = f s :=
  runActions_induction_mem (R := fun s t => f t = f s) (fun _ _ _ h k => k.trans h) hact hdone hseq h

@[simp] theorem Action.isPhaseEntry_fresh (a : Action) : a.fresh.isPhaseEntry = a.isPhaseEntry := by cases a <;> rfl

/-- Only initialize enters phases. -/
theorem isPhaseEntry_of_allowedIn {i : Instr} {a : Action} (h : a.AllowedIn i) (hinit : i ≠ .initializeDisplay) :
    a.isPhaseEntry = false := by
  cases a with
  | enterPhase p => exact absurd h hinit
  | _ => rfl

section
variable {i : Instr} {pops : Nat} {s t : State}

/-- An operation but initialize leaves PHASE alone (R24). -/
theorem runActions_phase (hinit : i ≠ .initializeDisplay) (h : runActions i (program pops i) s = .next t) :
    t.phase = s.phase :=
  runActions_value State.phase (fun a ha _ _ hl => (act_keeps hl).1
    (isPhaseEntry_of_allowedIn (allowedIn_of_mem_program a ha) hinit)) (fun _ => rfl) (fun _ _ => rfl) h

/-- And the timing subsystem (R30). -/
theorem runActions_timingEnabled (hinit : i ≠ .initializeDisplay) (h : runActions i (program pops i) s = .next t) :
    t.timingEnabled = s.timingEnabled := by
  refine runActions_value State.timingEnabled (fun a ha _ _ hl => (act_keeps hl).2.1 ?_) (fun _ => rfl)
    (fun _ _ => rfl) h
  rintro rfl
  exact hinit (allowedIn_of_mem_program _ ha)

/-- An operation but write-string takes no byte (R32). -/
theorem runActions_strPops (hstring : ∀ len text, i ≠ .writeString len text)
    (h : runActions i (program pops i) s = .next t) : t.strPops = s.strPops := by
  refine runActions_value State.strPops (fun a ha _ _ hl => (act_keeps hl).2.2.1 ?_) (fun _ => rfl) (fun _ _ => rfl) h
  rintro rfl
  obtain ⟨len, text, hi⟩ := allowedIn_of_mem_program _ ha
  exact hstring len text hi

/-- A reading operation leaves DB_OUT alone (R111). -/
theorem runActions_dbOut (hread : i.readsOnly = true) (h : runActions i (program pops i) s = .next t) :
    t.dbOut = s.dbOut := by
  refine runActions_value State.dbOut (fun a ha _ _ hl => (act_keeps hl).2.2.2 ?_) (fun _ => rfl) (fun _ _ => rfl) h
  rintro w rfl
  obtain ⟨hwrites, -⟩ := allowedIn_of_mem_program _ ha
  exact absurd (hread.symm.trans hwrites) nofun

end

/-- What an instruction leaves alone: an operation by its own positions; a word and a selector are one transaction
each. -/
theorem exec_keeps {i : Instr} {s t : State} (h : exec i s = .next t) :
    (i ≠ .initializeDisplay → t.phase = s.phase ∧ t.timingEnabled = s.timingEnabled) ∧
      ((∀ len text, i ≠ .writeString len text) → t.strPops = s.strPops) ∧
      (i.readsOnly = true → t.dbOut = s.dbOut) ∧
      (i.isOperation = false → t.results = s.results ∧ t.seq = s.seq ∧ t.rsp = s.rsp) := by
  rcases exec_next h with ⟨hop, -, rfl⟩ | ⟨hop, -, -, hrun⟩ | ⟨w, env, hw, -, -, -, rfl⟩ |
    ⟨sel, v, env, -, -, -, -, rfl⟩
  · exact ⟨fun _ => ⟨rfl, rfl⟩, fun _ => rfl, fun _ => rfl, fun _ => ⟨rfl, rfl, rfl⟩⟩
  · have hphase (hinit : i ≠ .initializeDisplay) := runActions_phase hinit hrun
    have htiming (hinit : i ≠ .initializeDisplay) := runActions_timingEnabled hinit hrun
    have hpops (hstring : ∀ len text, i ≠ .writeString len text) := runActions_strPops hstring hrun
    have hdb (hread : i.readsOnly = true) := runActions_dbOut hread hrun
    exact ⟨fun hinit => ⟨hphase hinit, htiming hinit⟩, hpops, hdb, fun hno => absurd (hop.symm.trans hno) nofun⟩
  · have hwrites : i.readsOnly = false := by
      cases i with
      | statusRead | dataRead | isBusy | readAddressCounter | getCurrentLine | readByte => cases hw
      | _ => rfl
    exact ⟨fun _ => ⟨rfl, rfl⟩, fun _ => rfl, fun hread => absurd (hread.symm.trans hwrites) nofun,
      fun _ => ⟨rfl, rfl, rfl⟩⟩
  · exact ⟨fun _ => ⟨rfl, rfl⟩, fun _ => rfl, fun _ => rfl, fun _ => ⟨rfl, rfl, rfl⟩⟩

/-- Settles O38: the frame, and what an instruction leaves alone besides. -/
theorem instructionsLeaveTheRestAlone : Obligations.InstructionsLeaveTheRestAlone := by
  intro i s t h
  have hframe := exec_frame h
  obtain ⟨hphase, hpops, hdb, hanswer⟩ := exec_keeps h
  refine ⟨hframe.params, hframe.rst, hframe.host, hphase, hpops, fun hread => hdb ?_, hanswer, hframe.fault,
    hframe.unbounded, hframe.trace⟩
  rcases hread with rfl | rfl | rfl | rfl | rfl | rfl <;> rfl

/-! SEQ stays on the program. -/

/-- The operation in flight stands before these positions of its own pseudocode, in the phase that belongs to it
(`State.OnProgram` with the position as an argument). -/
structure State.OnCode (s : State) (op : Instr) (todo : List Action) : Prop where
  operation : op.isOperation = true
  position : ∃ pops, todo.map Action.fresh <:+ program pops op
  ready : op ≠ .initializeDisplay → s.phase = .ready

/-- A running operation. -/
theorem State.onProgram_iff {s : State} {op : Instr} {todo : List Action} (hq : s.seq = .running op todo) :
    s.OnProgram ↔ s.OnCode op todo := by
  simp only [State.OnProgram, hq]
  exact ⟨fun ⟨hop, hpos, hready⟩ => ⟨hop, hpos, hready⟩, fun h => ⟨h.operation, h.position, h.ready⟩⟩

/-- A program holds no poll count. -/
theorem program_map_fresh (pops : Nat) (i : Instr) : (program pops i).map Action.fresh = program pops i :=
  (List.map_congr_left fun a ha => fresh_of_allowedIn (allowedIn_of_mem_program a ha)).trans (List.map_id _)

/-- An accepted operation stands before its first position. -/
theorem State.onCode_program {i : Instr} {s : State} (pops : Nat) (hop : i.isOperation = true)
    (hready : i ≠ .initializeDisplay → s.phase = .ready) : s.OnCode i (program pops i) :=
  ⟨hop, ⟨pops, by rw [program_map_fresh]⟩, hready⟩

namespace State.OnCode

variable {s t : State} {op : Instr} {a : Action} {rest : List Action}

/-- Of the state, only PHASE counts. -/
theorem of_phase {todo : List Action} (h : s.OnCode op todo) (hphase : t.phase = s.phase) : t.OnCode op todo :=
  ⟨h.operation, h.position, fun hinit => hphase.trans (h.ready hinit)⟩

/-- Only initialize stands before a phase entry. -/
theorem isPhaseEntry (h : s.OnCode op (a :: rest)) (hinit : op ≠ .initializeDisplay) : a.isPhaseEntry = false := by
  obtain ⟨pops, hpos⟩ := h.position
  have hallowed := allowedIn_of_mem_program a.fresh (hpos.subset List.mem_cons_self)
  simpa using isPhaseEntry_of_allowedIn hallowed hinit

/-- A position of the operation keeps the phase that belongs to it. -/
theorem ready_of_leaves (h : s.OnCode op (a :: rest)) (hact : (act a s).leaves t) (hinit : op ≠ .initializeDisplay) :
    t.phase = .ready :=
  ((act_keeps hact).1 (h.isPhaseEntry hinit)).trans (h.ready hinit)

/-- The operation moves on. -/
theorem onward (h : s.OnCode op (a :: rest)) (hact : act a s = .onward t) : t.OnCode op rest := by
  obtain ⟨pops, hpos⟩ := h.position
  exact ⟨h.operation, ⟨pops, (List.suffix_cons ..).trans hpos⟩, h.ready_of_leaves (.inl hact)⟩

/-- It waits, at the position it stood before. -/
theorem waiting {a' : Action} (h : s.OnCode op (a :: rest)) (hact : act a s = .waiting a' t) :
    t.OnCode op (a' :: rest) := by
  obtain ⟨⟨p, q, rfl, rfl⟩, -⟩ := sameFlight_of_waiting hact
  exact ⟨h.operation, h.position, h.ready_of_leaves (.inr (.inl ⟨_, hact⟩))⟩

end State.OnCode

/-- What a step of a running operation begins with. -/
theorem State.OnProgram.onCode {s : State} {op : Instr} {todo : List Action} (h : s.OnProgram)
    (hq : s.seq = .running op todo) : s.clearResponse.OnCode op todo :=
  ((State.onProgram_iff hq).mp h).of_phase rfl

/-- SEQ is idle after a completion, with no sampled byte left. -/
theorem onProgram_of_ended {a : Action} {s t : State} (h : act a s = .ended t) : t.OnProgram := by
  obtain ⟨u, r, rfl, -⟩ := complete_of_ended h
  rfl

/-- A run of an operation's positions stops at one of them, or is complete. -/
theorem runActions_onProgram {op : Instr} {todo : List Action} {s t : State} (hs : s.OnCode op todo)
    (h : runActions op todo s = .next t) : t.OnProgram := by
  induction todo generalizing s with
  | nil =>
    cases h
    rfl
  | cons a rest ih =>
    cases e : act a s with
    | onward u =>
      rw [runActions_onward e] at h
      exact ih (hs.onward e) h
    | waiting a' u =>
      rw [runActions_waiting e] at h
      cases h
      exact (State.onProgram_iff rfl).mpr ((hs.waiting e).of_phase rfl)
    | ended u =>
      rw [runActions_ended e] at h
      cases h
      exact onProgram_of_ended e
    | refused r => simp [runActions, e] at h

/-- So does one position. -/
theorem runOneAction_onProgram {op : Instr} {todo : List Action} {s t : State} (hs : s.OnCode op todo)
    (h : runOneAction op todo s = .next t) : t.OnProgram := by
  rcases runOneAction_next h with ⟨rfl, rfl⟩ | ⟨a, rest, u, rfl, e, rfl⟩ | ⟨a, rest, a', u, rfl, e, rfl⟩ |
    ⟨a, rest, rfl, e⟩
  · rfl
  · exact (State.onProgram_iff rfl).mpr ((hs.onward e).of_phase rfl)
  · exact (State.onProgram_iff rfl).mpr ((hs.waiting e).of_phase rfl)
  · exact onProgram_of_ended e

/-- Settles O43: an accepted operation stands before the whole of its program, and each position leaves it before the
rest. -/
theorem sequencerStaysOnItsProgram : Obligations.SequencerStaysOnItsProgram := by
  intro s t hprog h
  rcases step_cases h with ⟨-, -, rfl⟩ | ⟨hq, rfl⟩ | ⟨k, rest, i, -, -, -, -, hop, hready, hrun⟩ |
    ⟨op, todo, -, hq, hrun⟩
  · rfl
  · exact hprog
  · exact runActions_onProgram (State.onCode_program (s := s.clearResponse.setHost rest) s.strPops hop hready) hrun
  · exact runOneAction_onProgram (hprog.onCode hq) hrun

/-! PHASE follows initialize. -/

/-- How many phases are still to be entered does not depend on the poll counts. -/
theorem expectedPhase_map_fresh (todo : List Action) : expectedPhase (todo.map Action.fresh) = expectedPhase todo := by
  have hfresh : Action.isPhaseEntry ∘ Action.fresh = Action.isPhaseEntry := funext Action.isPhaseEntry_fresh
  simp only [expectedPhase, List.filter_map, List.length_map, hfresh]

/-- A position that enters no phase does not count. -/
theorem expectedPhase_cons {a : Action} (h : a.isPhaseEntry = false) (rest : List Action) :
    expectedPhase (a :: rest) = expectedPhase rest := by
  simp only [expectedPhase, List.filter_cons, h, Bool.false_eq_true, if_false]

/-- Whether a first position that enters a phase enters the one expected after it. -/
def entersExpectedPhase : List Action → Bool
  | .enterPhase p :: rest => expectedPhase rest == some p
  | _ => true

/-- initialize enters each phase in its turn (R190, R191). -/
theorem expectedPhase_of_entry {p : Phase} {rest : List Action} (h : .enterPhase p :: rest <:+ initializeActions) :
    expectedPhase rest = some p := by
  have hall : ∀ todo ∈ initializeActions.tails, entersExpectedPhase todo = true := by decide
  simpa [entersExpectedPhase] using hall _ ((List.mem_tails ..).mpr h)

/-- The phase is the one expected before these positions (`State.PhaseFollows` with the position as an argument). -/
def State.PhaseAt (s : State) (todo : List Action) : Prop := ∀ p, expectedPhase todo = some p → s.phase = p

/-- While an operation runs, PHASE follows if it does so when the operation is initialize. -/
theorem State.phaseFollows_of_running {s : State} {op : Instr} {todo : List Action} (hq : s.seq = .running op todo)
    (h : op = .initializeDisplay → s.PhaseAt todo) : s.PhaseFollows := by
  intro todo' p hq' hp
  cases hq.symm.trans hq'
  exact h rfl p hp

/-- While none runs, there is nothing to follow. -/
theorem State.phaseFollows_of_idle {s : State} (hq : s.seq = .idle) : s.PhaseFollows :=
  fun _ _ hq' _ => absurd (hq.symm.trans hq') nofun

/-- initialize moves on, into the phase expected there. -/
theorem phaseAt_of_onward {a : Action} {rest : List Action} {s t : State} (hs : s.OnCode .initializeDisplay (a :: rest))
    (hphase : s.PhaseAt (a :: rest)) (h : act a s = .onward t) : t.PhaseAt rest := by
  intro p hp
  by_cases ha : a.isPhaseEntry = true
  · cases a with
    | enterPhase q =>
      obtain ⟨pops, hpos⟩ := hs.position
      have hq := expectedPhase_of_entry hpos
      rw [expectedPhase_map_fresh, hp] at hq
      cases hq
      cases h
      rfl
    | _ => cases ha
  · rw [Bool.not_eq_true] at ha
    rw [(act_keeps (.inl h)).1 ha]
    exact hphase p ((expectedPhase_cons ha rest).trans hp)

/-- It waits, in the phase it was in. -/
theorem phaseAt_of_waiting {a a' : Action} {rest : List Action} {s t : State} (hphase : s.PhaseAt (a :: rest))
    (h : act a s = .waiting a' t) : t.PhaseAt (a' :: rest) := by
  obtain ⟨⟨m, n, rfl, rfl⟩, -⟩ := sameFlight_of_waiting h
  intro p hp
  rw [(act_keeps (.inr (.inl ⟨_, h⟩))).1 rfl]
  exact hphase p hp

/-- A run of an operation's positions keeps PHASE with initialize. -/
theorem runActions_phaseFollows {op : Instr} {todo : List Action} {s t : State} (hs : s.OnCode op todo)
    (hphase : op = .initializeDisplay → s.PhaseAt todo) (h : runActions op todo s = .next t) : t.PhaseFollows := by
  induction todo generalizing s with
  | nil =>
    cases h
    exact State.phaseFollows_of_idle rfl
  | cons a rest ih =>
    cases e : act a s with
    | onward u =>
      rw [runActions_onward e] at h
      refine ih (hs.onward e) ?_ h
      rintro rfl
      exact phaseAt_of_onward hs (hphase rfl) e
    | waiting a' u =>
      rw [runActions_waiting e] at h
      cases h
      exact State.phaseFollows_of_running rfl fun hinit => phaseAt_of_waiting (t := u) (hphase hinit) e
    | ended u =>
      rw [runActions_ended e] at h
      cases h
      exact State.phaseFollows_of_idle (seq_of_ended e)
    | refused r => simp [runActions, e] at h

/-- So does one position. -/
theorem runOneAction_phaseFollows {op : Instr} {todo : List Action} {s t : State} (hs : s.OnCode op todo)
    (hphase : op = .initializeDisplay → s.PhaseAt todo) (h : runOneAction op todo s = .next t) : t.PhaseFollows := by
  rcases runOneAction_next h with ⟨rfl, rfl⟩ | ⟨a, rest, u, rfl, e, rfl⟩ | ⟨a, rest, a', u, rfl, e, rfl⟩ |
    ⟨a, rest, rfl, e⟩
  · exact State.phaseFollows_of_idle rfl
  · refine State.phaseFollows_of_running rfl ?_
    rintro rfl
    exact phaseAt_of_onward (t := u) hs (hphase rfl) e
  · exact State.phaseFollows_of_running rfl fun hinit => phaseAt_of_waiting (t := u) (hphase hinit) e
  · exact State.phaseFollows_of_idle (seq_of_ended e)

/-- One position of an operation but initialize leaves PHASE alone. -/
theorem runOneAction_phase {op : Instr} {todo : List Action} {s t : State} (hs : s.OnCode op todo)
    (hinit : op ≠ .initializeDisplay) (h : runOneAction op todo s = .next t) : t.phase = s.phase := by
  rcases runOneAction_next h with ⟨rfl, rfl⟩ | ⟨a, rest, u, rfl, e, rfl⟩ | ⟨a, rest, a', u, rfl, e, rfl⟩ |
    ⟨a, rest, rfl, e⟩
  · rfl
  · exact (act_keeps (.inl e)).1 (hs.isPhaseEntry hinit)
  · exact (act_keeps (.inr (.inl ⟨a', e⟩))).1 (hs.isPhaseEntry hinit)
  · exact (act_keeps (.inr (.inr e))).1 (hs.isPhaseEntry hinit)

/-- A step keeps PHASE with initialize: an accepted initialize has all its phases still to enter, and any other
operation is none of its. -/
theorem step_phaseFollows {s t : State} (hprog : s.OnProgram) (hphase : s.PhaseFollows) (h : step s = .next t) :
    t.PhaseFollows := by
  rcases step_cases h with ⟨-, -, rfl⟩ | ⟨hq, rfl⟩ | ⟨k, rest, i, -, -, -, -, hop, hready, hrun⟩ |
    ⟨op, todo, -, hq, hrun⟩
  · exact State.phaseFollows_of_idle rfl
  · exact hphase
  · have hcode := State.onCode_program (s := s.clearResponse.setHost rest) s.strPops hop hready
    refine runActions_phaseFollows hcode ?_ hrun
    rintro rfl p hp
    cases hp
  · refine runOneAction_phaseFollows (hprog.onCode hq) ?_ hrun
    rintro rfl p hp
    exact hphase todo p hq hp

/-- A step that is no reset and no part of initialize leaves PHASE alone. -/
theorem step_phase {s t : State} (hprog : s.OnProgram) (h : step s = .next t) (hne : t.phase ≠ s.phase) :
    s.rst = true ∨ (∃ todo, s.seq = .running .initializeDisplay todo) ∨
      s.seq = .idle ∧ ∃ k rest, s.host = k :: rest ∧ decode (.command k) = .ok .initializeDisplay := by
  rcases step_cases h with ⟨hrst, -, -⟩ | ⟨-, rfl⟩ | ⟨k, rest, i, -, hq, hh, hd, -, -, hrun⟩ | ⟨op, todo, -, hq, hrun⟩
  · exact .inl hrst
  · exact absurd rfl hne
  · by_cases hinit : i = .initializeDisplay
    · exact .inr (.inr ⟨hq, k, rest, hh, hinit ▸ hd⟩)
    · exact absurd (runActions_phase hinit hrun) hne
  · by_cases hinit : op = .initializeDisplay
    · exact .inr (.inl ⟨todo, hinit ▸ hq⟩)
    · exact absurd (runOneAction_phase (hprog.onCode hq) hinit hrun) hne

/-- Settles O45. -/
theorem phaseFollowsInitialization : Obligations.PhaseFollowsInitialization :=
  fun _ _ hprog hphase h => ⟨step_phaseFollows hprog hphase h, step_phase hprog h⟩

/-! Reset, and acceptance by the phase. -/

/-- Settles O42: at reset no operation runs, nothing is on the trace and no fault is set. -/
theorem resetMeetsTheInvariants : Obligations.ResetMeetsTheInvariants :=
  ⟨⟨rfl, rfl, rfl, rfl, rfl⟩, rfl, State.guarded_of_idle rfl rfl, State.phaseFollows_of_idle rfl, nofun, trivial, rfl⟩

/-- initialize enters PowerOn first, so that the phase it was accepted in is forgotten (R190). -/
theorem exec_initialize_of_idle {s : State} (hq : s.seq = .idle) :
    exec .initializeDisplay s =
      runActions .initializeDisplay initializeActions.tail (s.clearResponse.setPhase .powerOn) := by
  simp only [exec_initialize, runInAnyPhase, hq]
  rfl

/-- Settles O30: both clauses are acceptance. -/
theorem onlyInitializeOutsideReady : Obligations.OnlyInitializeOutsideReady :=
  ⟨fun _ s hop hinit hq hphase => refusedOutsideReady hop hinit s hq hphase,
    fun s p hq => (exec_initialize_of_idle (s := s.setPhase p) hq).trans (exec_initialize_of_idle hq).symm⟩

end Sys2Proof.Machine
end

section
/-! SUPPORT. What the two transactions refuse (R116), the read selectors (R99), the operations that read the chip
(R135, R163, R182), the results on the response port (R100), and the least durations (R247). -/

namespace Sys2Proof.Machine

/-! Refusals. -/

/-- A word with RW = 1 (R116). -/
theorem writeTransaction_rwSet {w : Word10} (s : State) (hw : w[8] = true) :
    writeTransaction w s = .refused .writeWithRwSet := by
  simp [writeTransaction, hw]

/-- A bus that is not at rest (R33). -/
theorem writeTransaction_notAtRest {w : Word10} {s : State} (hw : w[8] = false) (hr : s.atRest = false) :
    writeTransaction w s = .refused .busNotAtRest := by
  simp [writeTransaction, hw, hr]

/-- A selector with RW = 0 (R116). -/
theorem readTransaction_rwClear (rs : Bool) (s : State) : readTransaction rs false s = .refused .readWithRwClear := rfl

/-- A bus that is not at rest (R33). -/
theorem readTransaction_notAtRest {s : State} (rs : Bool) (hr : s.atRest = false) :
    readTransaction rs true s = .refused .busNotAtRest := by
  simp [readTransaction, readBus, hr]

/-- E asserted, or the data lines turned inward. -/
theorem State.not_atRest {s : State} (h : s.e = true ∨ s.ddir = .inward) : s.atRest = false := by
  rcases h with h | h <;> simp [State.atRest, h]

/-- Settles O13: the refusals above. -/
theorem transactionsRefuseOtherUses : Obligations.TransactionsRefuseOtherUses :=
  fun s _ rs => ⟨writeTransaction_rwSet s, readTransaction_rwClear rs s, fun h =>
    ⟨fun hw => writeTransaction_notAtRest hw (State.not_atRest h), readTransaction_notAtRest rs (State.not_atRest h)⟩⟩

/-! Reads. -/

/-- Settles O15: each selector is one read transaction. -/
theorem readSelectorsReadTheBus : Obligations.ReadSelectorsReadTheBus :=
  fun _ _ _ hr => ⟨readTransaction_eq hr, readTransaction_eq hr⟩

/-- Settles O21: one status read, and a return with its busy flag. -/
theorem isBusyAnswersTheBusyFlag : Obligations.IsBusyAnswersTheBusyFlag := by
  have hinit : Instr.isBusy ≠ .initializeDisplay := nofun
  refine ⟨refusedOutsideReady rfl hinit, fun s v env₁ hs henv => ?_⟩
  have hread := act_read (s := s.clearResponse) (sel := selectorStatus) hs.rest rfl henv
  rw [exec_of_accepts rfl hinit hs, program, isBusyActions, runActions_onward hread]
  exact runActions_ended rfl

/-- Settles O22: the pseudocode is that of the address counter's reads, with the counter as its reply. -/
theorem readAddressCounterAnswersTheCounter : Obligations.ReadAddressCounterAnswersTheCounter := by
  have hinit : Instr.readAddressCounter ≠ .initializeDisplay := nofun
  refine ⟨refusedOutsideReady rfl hinit, ?_, ?_⟩
  · intro s v₁ v₂ env₁ env₂ hs hv henv
    exact (exec_of_accepts rfl hinit hs).trans (runActions_readCounter (r := .counter) hs.rest hv henv)
  · intro s busy mid v₁ v₂ env₁ env₂ hs hrst hbound hbusy hv henv
    exact exec_of_endsIn rfl hinit hs (endsIn_readCounter (r := .counter) (.of_accepts hs hrst hbound) hbusy hv henv)

section
variable {i : Instr} {s : State} {v₁ v₂ : Byte} {env₁ env₂ : Env}

/-- read-byte with the chip ready at the first poll: the whole of it in one run. -/
theorem runActions_readByte (hr : s.atRest = true) (hv : s.env.AnswersReady v₁ env₁)
    (henv : env₁.read true = .ok (v₂, env₂)) :
    runActions i readByteActions s =
      .next (((s.afterRead false v₁ env₁).afterRead true v₂ env₂).complete (.byte v₂)) := by
  have hread := act_read (s := s.afterRead false v₁ env₁) (sel := selectorData) rfl rfl henv
  rw [readByteActions, runActions_onward (act_awaitReady_ready 0 hr hv), runActions_onward hread]
  exact runActions_ended rfl

/-- Any number of busy polls first: it comes to its end in a number of steps. -/
theorem endsIn_readByte (h : s.Undisturbed) {busy : List Byte} {mid : Env} (hbusy : Env.BusyFor busy s.env mid)
    (hv : mid.AnswersReady v₁ env₁) (henv : env₁.read true = .ok (v₂, env₂)) :
    s.EndsIn i readByteActions
      (((s.afterPolls (busy ++ [v₁]) env₁).afterRead true v₂ env₂).complete (.byte v₂)) := by
  have hpolled := h.afterPolls (busy ++ [v₁]) env₁
  have hsampled := (hpolled.afterRead true v₂ env₂).setSampled v₂
  have hread : (s.afterPolls (busy ++ [v₁]) env₁).env.read true = .ok (v₂, env₂) := by simpa using henv
  exact .awaitReady h hbusy hv (.read (sel := selectorData) hpolled rfl hread (.respond hsampled .byte))

end

/-- Settles O24: the pseudocode of read-byte, at once and after busy polls. -/
theorem readByteAnswersTheDataRead : Obligations.ReadByteAnswersTheDataRead := by
  have hinit : Instr.readByte ≠ .initializeDisplay := nofun
  refine ⟨refusedOutsideReady rfl hinit, ?_, ?_⟩
  · intro s v₁ v₂ env₁ env₂ hs hv henv
    exact (exec_of_accepts rfl hinit hs).trans (runActions_readByte hs.rest hv henv)
  · intro s busy mid v₁ v₂ env₁ env₂ hs hrst hbound hbusy hv henv
    exact exec_of_endsIn rfl hinit hs (endsIn_readByte (.of_accepts hs hrst hbound) hbusy hv henv)

/-- Settles O1: the fields of the reset state. -/
theorem resetValues : Obligations.ResetValues := ⟨rfl, rfl, rfl, rfl, rfl, rfl, rfl, rfl⟩

/-- Settles O25: the codes are those of `Result.data`; an address is widened by a zero bit. -/
theorem resultsOnTheResponsePort : Obligations.ResultsOnTheResponsePort :=
  fun _ => ⟨rfl, rfl, rfl, fun a => BitVec.toNat_setWidth_of_le (by decide), fun _ => rfl, rfl, rfl, rfl⟩

/-! The addressing module. -/

/-- Settles O20: the pseudocode is that of set-DDRAM-address, and the address of a position has no top bit to lose. -/
theorem moveCursorSendsTheCellAddress : Obligations.MoveCursorSendsTheCellAddress := by
  intro line column
  have hpayload :
      (ddramPayload ((toDDRAMAddress line column).setWidth 8)).toNat = (toDDRAMAddress line column).toNat := by
    rw [toNat_ddramPayload, BitVec.toNat_setWidth_of_le (by decide)]
    exact Nat.mod_eq_of_lt (BitVec.isLt _)
  rw [← ddramAddressOfAPosition, ← hpayload]
  exact sendsOneWord_of_program (.wSetdd _) rfl rfl (fun _ => rfl) (wordSetdd_eq _)

/-- Settles O54: by R160 the address is at most 0x27 above the base of its line. -/
theorem positionsClassifyToTheirLine : Obligations.PositionsClassifyToTheirLine := by
  intro line column
  have haddr := ddramAddressOfAPosition line column
  have hwide : ((toDDRAMAddress line column).setWidth 8).toNat = (toDDRAMAddress line column).toNat :=
    BitVec.toNat_setWidth_of_le (by decide)
  split_ifs at haddr ⊢ with hline
  · have hcell : (toDDRAMAddress line column).toNat ≤ 0x27 := by omega
    exact ⟨(classifyAddress_eq_line1_iff _).mpr (hwide ▸ hcell), by simp [isDdramCell, hcell]⟩
  · have hcell : 0x40 ≤ (toDDRAMAddress line column).toNat ∧ (toDDRAMAddress line column).toNat ≤ 0x67 := by omega
    exact ⟨(classifyAddress_eq_line2_iff _).mpr (hwide ▸ hcell), by simp [isDdramCell, hcell]⟩

/-! The least durations. -/

/-- A write transaction asks for three waits (R110). -/
theorem askedTime_writeEvents (p : Params) (w : Word10) :
    askedTime p (writeEvents p w) = Wait.asked p .setup + Wait.asked p .pulse + Wait.asked p .hold := by
  simp [askedTime, writeEvents, Event.asked, Nat.add_assoc]

/-- So does a read transaction (R111). -/
theorem askedTime_readEvents (p : Params) (rs : Bool) (v : Byte) :
    askedTime p (readEvents p rs v) = Wait.asked p .setup + Wait.asked p .dataValid + Wait.asked p .hold := by
  simp [askedTime, readEvents, Event.asked, Nat.add_assoc]

/-- Settles O56: the sums of the minima, and of the waits at one microsecond (O55). -/
theorem transactionsLastTheirMinimum : Obligations.TransactionsLastTheirMinimum := by
  intro p w rs v hres
  rw [askedTime_writeEvents, askedTime_readEvents]
  have hsetup : 40 ≤ Wait.asked p .setup := Wait.minimum_le_asked .setup hres
  have hpulse : 80 ≤ Wait.asked p .pulse := Wait.minimum_le_asked .pulse hres
  have hhold : 10 ≤ Wait.asked p .hold := Wait.minimum_le_asked .hold hres
  have hvalid : 160 ≤ Wait.asked p .dataValid := Wait.minimum_le_asked .dataValid hres
  refine ⟨by omega, by omega, fun hus => ?_⟩
  obtain ⟨hs, hp, hh, hd, -⟩ := waitsAreRoundedUp.2.2 p hus
  omega

end Sys2Proof.Machine
end

section
/-! SUPPORT. A map of the state that the positions do not notice: another SEQ, or another duration (R246). With the
first, a step is one position of the pseudocode, and the small steps of an operation reach what its meaning answers
(R25, log 1). -/

namespace Sys2Proof.Machine

/-! Maps of the state that commute with every position. -/

/-- Progress with its states mapped: by `f` where the operation goes on, by `g` where it has ended. -/
def Progress.map (f g : State → State) : Progress → Progress
  | .onward s => .onward (f s)
  | .waiting a s => .waiting a (f s)
  | .ended s => .ended (g s)
  | .refused r => .refused r

/-- A transaction's answer as progress. -/
theorem progressOf_map (f g : State → State) (ans : Answer) :
    progressOf (mapAnswer f ans) = (progressOf ans).map f g := by
  cases ans with
  | next t => rfl
  | refused r => rfl
  | fault x => cases x

/-- `f` leaves what a position looks at, and commutes with what it does; after a completion it is `g`. -/
structure Unnoticed (f g : State → State) : Prop where
  env (s : State) : (f s).env = s.env
  atRest (s : State) : (f s).atRest = s.atRest
  maxPolls (s : State) : (f s).params.maxPolls = s.params.maxPolls
  sampled (s : State) : (f s).sampled = s.sampled
  afterRead (s : State) (rs : Bool) (v : Byte) (env : Env) : (f s).afterRead rs v env = f (s.afterRead rs v env)
  afterWrite (s : State) (w : Word10) (env : Env) : (f s).afterWrite w env = f (s.afterWrite w env)
  setSampled (s : State) (v : Byte) : (f s).setSampled v = f (s.setSampled v)
  delay (s : State) (k : Wait) : (f s).delay k = f (s.delay k)
  enableTiming (s : State) : (f s).enableTiming = f s.enableTiming
  setPhase (s : State) (p : Phase) : (f s).setPhase p = f (s.setPhase p)
  takeByte (s : State) : (f s).takeByte = f s.takeByte
  complete (s : State) (r : Result) : (f s).complete r = g (s.complete r)
  raiseHardwareUnresponsive (s : State) : (f s).raiseHardwareUnresponsive = g s.raiseHardwareUnresponsive

section
variable {f g : State → State} (h : Unnoticed f g)
include h

theorem writeTransaction_map (w : Word10) (s : State) :
    writeTransaction w (f s) = mapAnswer f (writeTransaction w s) := by
  rcases writeTransaction_cases w s with ⟨hw, e⟩ | ⟨hw, hr, e⟩ | ⟨hw, hr, r, henv, e⟩ | ⟨hw, hr, env, henv, e⟩ <;>
    rw [e]
  · exact writeTransaction_rwSet _ hw
  · exact writeTransaction_notAtRest hw ((h.atRest s).trans hr)
  · simp [writeTransaction, hw, h.atRest, hr, h.env, henv, mapAnswer]
  · rw [writeTransaction_eq ((h.atRest s).trans hr) hw (h.env s ▸ henv), h.afterWrite]
    rfl

/-- A read with its state mapped. -/
theorem readBus_map (rs rw : Bool) (s : State) :
    readBus rs rw (f s) = (readBus rs rw s).map (Prod.map id f) := by
  rcases readBus_cases rs rw s with ⟨rfl, e⟩ | ⟨rfl, hr, e⟩ | ⟨rfl, hr, r, henv, e⟩ | ⟨rfl, hr, v, env, henv, e⟩ <;>
    rw [e]
  · rfl
  · simp [readBus, h.atRest, hr, Except.map]
  · simp [readBus, h.atRest, hr, h.env, henv, Except.map]
  · rw [readBus_eq ((h.atRest s).trans hr) (h.env s ▸ henv), h.afterRead]
    rfl

theorem readTransaction_map (rs rw : Bool) (s : State) :
    readTransaction rs rw (f s) = mapAnswer f (readTransaction rs rw s) := by
  rw [readTransaction, readTransaction, readBus_map h]
  cases readBus rs rw s with
  | error r => rfl
  | ok p => exact congrArg Host.Outcome.next (h.setSampled p.2 p.1)

/-- The end or the next poll after a busy one. -/
theorem afterBusyPoll_map (polls : Nat) (s : State) : afterBusyPoll polls (f s) = (afterBusyPoll polls s).map f g := by
  rw [afterBusyPoll, afterBusyPoll, h.maxPolls]
  cases s.params.maxPolls with
  | none => rfl
  | some m =>
    by_cases hm : m ≤ polls + 1
    · simp only [hm, if_true, Progress.map, h.raiseHardwareUnresponsive]
    · simp only [hm, if_false, Progress.map]

theorem pollOnce_map (polls : Nat) (s : State) : pollOnce polls (f s) = (pollOnce polls s).map f g := by
  rw [pollOnce, pollOnce, readBus_map h]
  cases readBus false true s with
  | error r => rfl
  | ok p =>
    obtain ⟨v, t⟩ := p
    cases hv : busyFlag v with
    | true => simpa [Except.map, hv] using afterBusyPoll_map h polls t
    | false => simp [Except.map, hv, Progress.map]

/-- Every position. -/
theorem act_map (a : Action) (s : State) : act a (f s) = (act a s).map f g := by
  cases a with
  | awaitReady polls => exact pollOnce_map h polls s
  | delay k => exact congrArg Progress.onward (h.delay s k)
  | enableTiming => exact congrArg Progress.onward (h.enableTiming s)
  | enterPhase p => exact congrArg Progress.onward (h.setPhase s p)
  | takeByte => exact congrArg Progress.onward (h.takeByte s)
  | write w => rw [act, writeTransaction_map h, progressOf_map, act]
  | read sel => rw [act, readTransaction_map h, progressOf_map, act]
  | respond r => rw [act, h.sampled, h.complete]; rfl

end

/-! Another SEQ. -/

/-- No position looks at SEQ, and a completion sets it. -/
theorem unnoticed_setSeq (q : Sequencer) : Unnoticed (State.setSeq · q) id where
  env _ := rfl
  atRest _ := rfl
  maxPolls _ := rfl
  sampled _ := rfl
  afterRead _ _ _ _ := rfl
  afterWrite _ _ _ := rfl
  setSampled _ _ := rfl
  delay _ _ := rfl
  enableTiming _ := rfl
  setPhase _ _ := rfl
  takeByte _ := rfl
  complete _ _ := rfl
  raiseHardwareUnresponsive _ := rfl

/-- One position, whatever SEQ was. -/
theorem runOneAction_setSeq (op : Instr) (todo : List Action) (s : State) (q : Sequencer) :
    runOneAction op todo (s.setSeq q) = runOneAction op todo s := by
  cases todo with
  | nil => rfl
  | cons a rest =>
    simp only [runOneAction, act_map (unnoticed_setSeq q)]
    cases act a s <;> rfl

/-! A step is one position. -/

/-- A position whose transaction, if it is one, decodes. -/
def Action.Fetchable : Action → Prop
  | .write w => ∃ j, encode j = .word w
  | .read sel => ∃ j, decodeSelector sel = .ok j
  | .awaitReady _ | .delay _ | .enableTiming | .enterPhase _ | .takeByte | .respond _ => True

/-- Those of a program do. -/
theorem Action.AllowedIn.fetchable {i : Instr} {a : Action} (h : a.AllowedIn i) : a.Fetchable := by
  cases a with
  | write w =>
    obtain ⟨-, j, hj, -⟩ := h
    exact ⟨j, hj⟩
  | read sel => exact h
  | _ => trivial

/-- A position that is a transaction moves on as it answers. -/
theorem runOneAction_of_transaction {op : Instr} {a : Action} {rest : List Action} {s : State} {ans : Answer}
    (h : act a s = progressOf ans) :
    runOneAction op (a :: rest) s = mapAnswer (State.setSeq · (.running op rest)) ans := by
  rw [runOneAction, h]
  cases ans with
  | next t => rfl
  | refused r => rfl
  | fault x => cases x

/-- A step of a running operation is its position (R25), whatever that answers. -/
theorem step_eq_runOneAction {s : State} {op : Instr} {a : Action} {rest : List Action} (hrst : s.rst = false)
    (hq : s.seq = .running op (a :: rest)) (ha : a.Fetchable) :
    step s = runOneAction op (a :: rest) s.clearResponse := by
  cases a with
  | write w =>
    obtain ⟨j, hj⟩ := ha
    rw [step_transaction hrst hq (fun _ => rfl) (decodeWord_of_encode hj), exec_word hj,
      writeTransaction_map (unnoticed_setSeq _), runOneAction_of_transaction rfl]
  | read sel =>
    obtain ⟨j, hj⟩ := ha
    rw [step_transaction hrst hq (fun _ => rfl) hj, exec_selector (encode_of_decodeSelector hj),
      readTransaction_map (unnoticed_setSeq _), runOneAction_of_transaction rfl]
  | _ => simp only [step, fetch_running hrst hq, fetchPosition]

/-- The same of an operation placed before a position, with no reset and no pulse left. -/
theorem step_setSeq {s : State} {a : Action} (hrst : s.rst = false) (hrsp : s.rsp = none) (ha : a.Fetchable)
    (op : Instr) (rest : List Action) : step (s.setSeq (.running op (a :: rest))) = runOneAction op (a :: rest) s := by
  have hclear : s.clearResponse = s := congrArg (fun r => { s with rsp := r }) hrsp.symm
  have hstep := step_eq_runOneAction (s := s.setSeq (.running op (a :: rest))) hrst rfl ha
  exact hstep.trans ((runOneAction_setSeq op (a :: rest) s.clearResponse _).trans (by rw [hclear]))

/-- One step. -/
theorem runSteps_one (s : State) : runSteps 1 s = step s := by
  rw [runSteps_succ]
  cases step s <;> rfl

/-- The small steps of an operation from a position reach what the run from there answers. -/
theorem exists_runSteps_eq_runActions {op : Instr} {todo : List Action} {s : State} (htodo : ∀ a ∈ todo, a.Fetchable)
    (hrst : s.rst = false) (hrsp : s.rsp = none) :
    ∃ n, runSteps n (s.setSeq (.running op todo)) = runActions op todo s := by
  induction todo generalizing s with
  | nil =>
    refine ⟨1, ?_⟩
    simp only [runSteps_one, step, fetch_running (s := s.setSeq (.running op [])) hrst rfl, fetchPosition]
    rfl
  | cons a rest ih =>
    obtain ⟨ha, hrest⟩ := List.forall_mem_cons.mp htodo
    have hstep := step_setSeq hrst hrsp ha op rest
    cases e : act a s with
    | onward u =>
      obtain ⟨n, hn⟩ := ih (s := u) hrest ((act_frame (.inl e)).rst.trans hrst)
        ((sameFlight_of_onward e).rsp.trans hrsp)
      refine ⟨n + 1, ?_⟩
      rw [runSteps_succ, hstep, runActions_onward e, ← hn, runOneAction, e]
      rfl
    | waiting a' u => exact ⟨1, by rw [runSteps_one, hstep, runActions_waiting e, runOneAction, e]⟩
    | ended u => exact ⟨1, by rw [runSteps_one, hstep, runActions_ended e, runOneAction, e]⟩
    | refused r => exact ⟨1, by rw [runSteps_one, hstep]; simp only [runOneAction, runActions, e]⟩

/-- An operation presented to an idle block that accepts it runs its program. -/
theorem exec_of_idle {i : Instr} {s : State} (hop : i.isOperation = true) (hq : s.seq = .idle)
    (hready : i ≠ .initializeDisplay → s.phase = .ready) :
    exec i s = runActions i (program s.strPops i) s.clearResponse := by
  by_cases hinit : i = .initializeDisplay
  · simp only [hinit, exec_initialize, runInAnyPhase, hq]
  · simp only [exec_operation hop hinit, runWhenReady, hq, hready hinit, if_true]

/-- Settles O37: an accepted operation with none of its pseudocode run stands before its whole program. -/
theorem smallStepsReachTheMeaning : Obligations.SmallStepsReachTheMeaning := by
  intro i s hop hq hrst hready
  rw [exec_of_idle hop hq hready]
  exact exists_runSteps_eq_runActions (fun a ha => (allowedIn_of_mem_program a ha).fetchable) hrst rfl

/-! The waits. -/

/-- An unbounded wait whose chip eventually shows ready ends (R71). -/
theorem exists_runSteps_of_eventuallyReady {s : State} {op : Instr} {p : Nat} {rest : List Action}
    (hat : s.clearResponse.AtWait op p rest) (hbound : s.params.maxPolls = none) (h : s.env.EventuallyReady) :
    ∃ n t, runSteps n s = .next t ∧ t.seq = .running op rest := by
  obtain ⟨busy, v, mid, env, hbusy, hv⟩ := h
  have hrun := hat.runSteps_ready hbusy (fun m hm => absurd (hbound.symm.trans hm) nofun) hv
  rw [runSteps_succ, step_clearResponse, ← runSteps_succ] at hrun
  exact ⟨_, _, hrun, rfl⟩

/-- An unbounded wait that has ended was shown ready: until then every step is a busy poll (R137). -/
theorem eventuallyReady_of_runSteps {s t : State} {op : Instr} {p n : Nat} {rest : List Action} (hrst : s.rst = false)
    (hbound : s.params.maxPolls = none) (hq : s.seq = .running op (.awaitReady p :: rest))
    (h : runSteps n s = .next t) (ht : t.seq = .running op rest) : s.env.EventuallyReady := by
  induction n generalizing s with
  | zero =>
    cases h
    simp [hq] at ht
  | succ n ih =>
    rw [runSteps_succ, step_eq_runOneAction hrst hq trivial, runOneAction, act] at h
    rcases pollOnce_cases p s.clearResponse with ⟨r, -, e⟩ | ⟨v, env, -, hv, -⟩ | ⟨v, env, -, hv, e⟩
    · simp only [e] at h
      cases h
    · exact ⟨[], v, s.env, env, rfl, hv⟩
    · rw [e, afterBusyPoll_unbounded (s := s.clearResponse.afterRead false v env) p hbound] at h
      obtain ⟨vs, u, mid, env', hbusy, hu⟩ := ih
        (s := (s.clearResponse.afterRead false v env).setSeq (.running op (.awaitReady p :: rest))) hrst hbound rfl h
      exact ⟨v :: vs, u, mid, env', ⟨env, hv, hbusy⟩, hu⟩

/-- Settles O35. -/
theorem awaitReadyEndsIffChipEventuallyReady : Obligations.AwaitReadyEndsIffChipEventuallyReady := by
  intro s op p rest hrst hrest hbound hq
  refine ⟨fun ⟨n, t, h, ht⟩ => eventuallyReady_of_runSteps hrst hbound hq h ht, fun h => ?_⟩
  exact exists_runSteps_of_eventuallyReady ⟨hq, hrst, rfl, hrest⟩ hbound h

/-- Settles O36: the first step accepts the operation; with no busy poll it is the whole run, else it is the first of
the polls. -/
theorem writeOperationsCompleteAfterTheChipIsReady : Obligations.WriteOperationsCompleteAfterTheChipIsReady := by
  intro s k cmds i w busy mid v env₁ env₂ hs hrst hbound hh hd hprog hbusy hv henv
  have hop := isOperation_of_decodeCommand hd
  have hinit := ne_initialize_of_program hprog
  have hs' : (s.clearResponse.setHost cmds).Accepts := ⟨hs.idle, hs.ready, hs.rest⟩
  obtain ⟨j, hj⟩ : (Action.write w).Fetchable :=
    (allowedIn_of_mem_program (i := i) (pops := s.strPops) _ (by simp [hprog])).fetchable
  by_cases hnone : busy = []
  · subst hnone
    cases hbusy
    rw [if_pos rfl, runSteps_one, step_command hrst hs.idle hh hd, exec_of_accepts hop hinit hs']
    exact hprog ▸ runActions_sendWord hj hs'.rest hv henv
  · rw [if_neg hnone, runSteps_succ, step_command hrst hs.idle hh hd]
    exact thenSteps_exec_sendWord hop hprog hj hs' hrst hbound hnone hbusy hv henv

/-! Another duration. -/

/-- No position looks at DELAY_RES, MARGIN or F_CLK (R246). -/
theorem unnoticed_withTiming (delayRes margin : Nat) (fClk : Option Nat) :
    Unnoticed (State.withTiming · delayRes margin fClk) (State.withTiming · delayRes margin fClk) where
  env _ := rfl
  atRest _ := rfl
  maxPolls _ := rfl
  sampled _ := rfl
  afterRead _ _ _ _ := rfl
  afterWrite _ _ _ := rfl
  setSampled _ _ := rfl
  delay _ _ := rfl
  enableTiming _ := rfl
  setPhase _ _ := rfl
  takeByte _ := rfl
  complete _ r := by cases r <;> rfl
  raiseHardwareUnresponsive _ := rfl

section
variable (delayRes margin : Nat) (fClk : Option Nat)

/-- A run of positions. -/
theorem runActions_withTiming (op : Instr) (todo : List Action) (s : State) :
    runActions op todo (s.withTiming delayRes margin fClk) =
      mapAnswer (State.withTiming · delayRes margin fClk) (runActions op todo s) := by
  induction todo generalizing s with
  | nil => rfl
  | cons a rest ih =>
    simp only [runActions, act_map (unnoticed_withTiming delayRes margin fClk)]
    cases act a s with
    | onward t => exact ih t
    | waiting a' t => rfl
    | ended t => rfl
    | refused r => rfl

/-- One position. -/
theorem runOneAction_withTiming (op : Instr) (todo : List Action) (s : State) :
    runOneAction op todo (s.withTiming delayRes margin fClk) =
      mapAnswer (State.withTiming · delayRes margin fClk) (runOneAction op todo s) := by
  cases todo with
  | nil => rfl
  | cons a rest =>
    simp only [runOneAction, act_map (unnoticed_withTiming delayRes margin fClk)]
    cases act a s <;> rfl

/-- An instruction: a transaction, or an operation that is accepted by SEQ and PHASE and runs its program. -/
theorem exec_withTiming (i : Instr) (s : State) :
    exec i (s.withTiming delayRes margin fClk) = mapAnswer (State.withTiming · delayRes margin fClk) (exec i s) := by
  rcases instr_kinds i with hop | ⟨w, hw⟩ | ⟨sel, hsel⟩
  · cases hq : s.seq with
    | running op todo =>
      rw [exec_of_running hop hq]
      exact exec_of_running (s := s.withTiming delayRes margin fClk) hop hq
    | idle =>
      by_cases hready : i ≠ .initializeDisplay → s.phase = .ready
      · rw [exec_of_idle hop hq hready]
        exact (exec_of_idle (s := s.withTiming delayRes margin fClk) hop hq hready).trans
          (runActions_withTiming delayRes margin fClk i (program s.strPops i) s.clearResponse)
      · obtain ⟨hinit, hphase⟩ := Classical.not_imp.mp hready
        rw [refusedOutsideReady hop hinit s hq hphase]
        exact refusedOutsideReady hop hinit (s.withTiming delayRes margin fClk) hq hphase
  · rw [exec_word hw, exec_word hw, writeTransaction_map (unnoticed_withTiming delayRes margin fClk)]
  · rw [exec_selector hsel, exec_selector hsel, readTransaction_map (unnoticed_withTiming delayRes margin fClk)]

@[simp] theorem State.withTiming_host (s : State) : (s.withTiming delayRes margin fClk).host = s.host := rfl

@[simp] theorem State.withTiming_seq (s : State) : (s.withTiming delayRes margin fClk).seq = s.seq := rfl

/-- What a step finds, with its state mapped. -/
def Fetched.map (f : State → State) : Fetched → Fetched
  | .run i s => .run i (f s)
  | .answer a => .answer (mapAnswer f a)

/-- The command port. -/
theorem fetchCommand_withTiming (s : State) :
    fetchCommand (s.withTiming delayRes margin fClk) =
      (fetchCommand s).map (State.withTiming · delayRes margin fClk) := by
  simp only [fetchCommand, State.withTiming_host]
  cases s.host with
  | nil => rfl
  | cons k rest =>
    dsimp only
    cases decode (.command k) <;> rfl

/-- The reset. -/
theorem takeReset_withTiming (s : State) :
    takeReset (s.withTiming delayRes margin fClk) =
      mapAnswer (State.withTiming · delayRes margin fClk) (takeReset s) := by
  simp only [takeReset, State.withTiming_seq]
  cases s.seq <;> rfl

/-- A transaction of the operation in flight. -/
theorem fetchTransaction_withTiming (x : Encoded) (op : Instr) (rest : List Action) (s : State) :
    fetchTransaction x op rest (s.withTiming delayRes margin fClk) =
      (fetchTransaction x op rest s).map (State.withTiming · delayRes margin fClk) := by
  unfold fetchTransaction
  cases decode x <;> rfl

/-- A position of the operation in flight. -/
theorem fetchPosition_withTiming (op : Instr) (todo : List Action) (s : State) :
    fetchPosition op todo (s.withTiming delayRes margin fClk) =
      (fetchPosition op todo s).map (State.withTiming · delayRes margin fClk) := by
  have hother := congrArg Fetched.answer (runOneAction_withTiming delayRes margin fClk op todo s)
  cases todo with
  | nil => exact hother
  | cons a rest =>
    cases a with
    | write w => exact fetchTransaction_withTiming delayRes margin fClk (.word w) op rest s
    | read sel => exact fetchTransaction_withTiming delayRes margin fClk (.selector sel) op rest s
    | _ => exact hother

/-- What a step finds. -/
theorem fetch_withTiming (s : State) :
    fetch (s.withTiming delayRes margin fClk) = (fetch s).map (State.withTiming · delayRes margin fClk) := by
  cases hrst : s.rst with
  | true =>
    rw [fetch_rst hrst]
    exact (fetch_rst (s := s.withTiming delayRes margin fClk) hrst).trans
      (congrArg Fetched.answer (takeReset_withTiming delayRes margin fClk s.clearResponse))
  | false =>
    cases hq : s.seq with
    | idle =>
      rw [fetch_idle hrst hq]
      exact (fetch_idle (s := s.withTiming delayRes margin fClk) hrst hq).trans
        (fetchCommand_withTiming delayRes margin fClk s.clearResponse)
    | running op todo =>
      rw [fetch_running hrst hq]
      exact (fetch_running (s := s.withTiming delayRes margin fClk) hrst hq).trans
        (fetchPosition_withTiming delayRes margin fClk op todo s.clearResponse)

/-- Settles O57: a step finds the same, and an instruction does the same. -/
theorem noStepDependsOnADuration : Obligations.NoStepDependsOnADuration := by
  intro s delayRes margin fClk
  rw [step, fetch_withTiming, step]
  cases fetch s with
  | run i t => exact exec_withTiming delayRes margin fClk i t
  | answer a => rfl

end

end Sys2Proof.Machine
end

section
/-! SUPPORT. initialize (R190): the startup wait and TimingEnable before any bus event, then four words, each after
its own ready-wait and followed by the phase it configures. The phases in between play no part in what the
transactions leave, so the last one is set once for all. -/

namespace Sys2Proof.Machine

/-! The pseudocode. -/

/-- Words in order, each after its own ready-wait and before the phase it leads to. -/
def sendConfiguring : List (Word10 × Phase) → List Action
  | [] => []
  | (w, p) :: rest => .awaitReady 0 :: .write w :: .enterPhase p :: sendConfiguring rest

/-- The words of R193 with the phases of R191. -/
def configuration : List (Word10 × Phase) :=
  [(0x038#10, .functionConfigured), (0x00E#10, .displayConfigured), (0x006#10, .entryConfigured), (0x001#10, .cleared)]

/-- Each is the word of an instruction. -/
theorem exists_encode_of_mem_configuration : ∀ x ∈ configuration, ∃ j, encode j = .word x.1 := by
  simp only [configuration, List.forall_mem_cons]
  exact ⟨⟨.wFuncset true true false, rfl⟩, ⟨.wDispctl true true false, rfl⟩, ⟨.wEntry true false, rfl⟩, ⟨.wClear, rfl⟩,
    nofun⟩

/-- The positions after PowerOn is entered (R190). -/
theorem initializeActions_tail :
    initializeActions.tail =
      .delay .startup :: .enableTiming :: (sendConfiguring configuration ++ [.enterPhase .ready, .respond .nothing]) :=
  rfl

/-- The state in which the first ready-wait begins. -/
def State.afterStartup (s : State) : State :=
  { s with rsp := none, timingEnabled := true, trace := s.trace ++ [.delay .startup, .timingEnable] }

/-- An accepted initialize: what comes before its first ready-wait is no transaction. -/
theorem exec_initialize_eq {s : State} (hq : s.seq = .idle) :
    exec .initializeDisplay s =
      runActions .initializeDisplay (sendConfiguring configuration ++ [.enterPhase .ready, .respond .nothing])
        (s.afterStartup.setPhase .powerOn) := by
  have hstart :
      ((s.clearResponse.setPhase .powerOn).delay .startup).enableTiming = s.afterStartup.setPhase .powerOn := by
    simp [State.afterStartup, State.clearResponse, State.setPhase, State.delay, State.enableTiming, State.emit]
  rw [exec_initialize_of_idle hq, initializeActions_tail, runActions_onward rfl, runActions_onward rfl, hstart]

/-- Settles O29: the trace from there on only grows. -/
theorem initializeWaitsBeforeTheBus : Obligations.InitializeWaitsBeforeTheBus := by
  intro s t hq h
  rw [exec_initialize_eq hq] at h
  exact (runActions_frame h).trace

/-! The phase of a sequence of words. -/

/-- Whether PHASE is set before a sequence of words or after it makes no difference. -/
theorem State.setPhase_afterSends (s : State) (p : Phase) (sends : List (Byte × Word10)) (env : Env) :
    (s.setPhase p).afterSends sends env = (s.afterSends sends env).setPhase p :=
  List.foldl_hom (State.setPhase · p) fun _ _ => rfl

/-- The same of a run of polls. -/
theorem State.setPhase_afterPolls (s : State) (p : Phase) (vs : List Byte) (env : Env) :
    (s.setPhase p).afterPolls vs env = (s.afterPolls vs env).setPhase p :=
  List.foldl_hom (State.setPhase · p) fun _ _ => rfl

/-- The same of a sequence of words, each after its own polls. -/
theorem State.setPhase_afterGroups (s : State) (p : Phase) (groups : List (List Byte × Byte × Word10)) (env : Env) :
    (s.setPhase p).afterGroups groups env = (s.afterGroups groups env).setPhase p :=
  List.foldl_hom (State.setPhase · p) fun t g => by
    rw [t.setPhase_afterPolls]
    rfl

/-! The words. -/

/-- Every first poll shows ready: the rest of initialize in one run. Each word comes with its phase and its poll. -/
theorem runActions_sendConfiguring {op : Instr} {s : State} {sends : List (Phase × Byte × Word10)} {env : Env}
    (hj : ∀ x ∈ sends, ∃ j, encode j = .word x.2.2) (hr : s.atRest = true)
    (h : Env.Sends (sends.map Prod.snd) s.env env) :
    runActions op (sendConfiguring (sends.map fun x => (x.2.2, x.1)) ++ [.enterPhase .ready, .respond .nothing]) s =
      .next (((s.setPhase .ready).afterSends (sends.map Prod.snd) env).complete .nothing) := by
  rw [← State.setEnv_afterSends (s := s.setPhase .ready) h]
  induction sends generalizing s with
  | nil =>
    cases h
    rfl
  | cons x rest ih =>
    obtain ⟨p, v, w⟩ := x
    obtain ⟨polled, taken, hv, hw, hrest⟩ := h
    obtain ⟨⟨j, hjw⟩, hjs⟩ := List.forall_mem_cons.mp hj
    have hwrite : act (.write w) (s.afterRead false v polled) = .onward (s.afterSend v w polled taken) :=
      act_write rfl (Laws.WordRwClear.all j w hjw) hw
    rw [List.map_cons, sendConfiguring, List.cons_append, List.cons_append, List.cons_append,
      runActions_onward (act_awaitReady_ready 0 hr hv), runActions_onward hwrite, runActions_onward rfl]
    exact ih (s := (s.afterSend v w polled taken).setPhase p) hjs rfl hrest

/-- A position from which the run goes on: so does a small step. -/
theorem State.EndsIn.of_act {s t u : State} {op : Instr} {a : Action} {rest : List Action} (h : s.Undisturbed)
    (ha : a.Fetchable) (hact : act a s = .onward u) (hend : u.EndsIn op rest t) : s.EndsIn op (a :: rest) t := by
  refine .onward hact ?_ hend
  rw [step_setSeq h.rst h.rsp ha, runOneAction, hact]

theorem State.Undisturbed.setPhase {s : State} (h : s.Undisturbed) (p : Phase) : (s.setPhase p).Undisturbed :=
  ⟨h.rst, h.rsp, h.unbounded, h.atRest⟩

/-- Any number of busy polls before each word: initialize comes to its end in a number of steps. -/
theorem endsIn_sendConfiguring {op : Instr} {s : State} {groups : List (Phase × List Byte × Byte × Word10)} {env : Env}
    (hj : ∀ g ∈ groups, ∃ j, encode j = .word g.2.2.2) (hs : s.Undisturbed)
    (h : Env.SendsAfter (groups.map Prod.snd) s.env env) :
    s.EndsIn op (sendConfiguring (groups.map fun g => (g.2.2.2, g.1)) ++ [.enterPhase .ready, .respond .nothing])
      (((s.setPhase .ready).afterGroups (groups.map Prod.snd) env).complete .nothing) := by
  rw [← State.setEnv_afterGroups (s := s.setPhase .ready) h]
  induction groups generalizing s with
  | nil =>
    cases h
    exact .of_act hs trivial rfl (.respond (hs.setPhase .ready) .nothing)
  | cons g rest ih =>
    obtain ⟨p, busy, v, w⟩ := g
    obtain ⟨mid, polled, taken, hbusy, hv, hw, hrest⟩ := h
    obtain ⟨⟨j, hjw⟩, hjs⟩ := List.forall_mem_cons.mp hj
    have hpolled := hs.afterPolls (busy ++ [v]) polled
    have hsent := hpolled.afterWrite w taken
    have hend := ih hjs (hsent.setPhase p) hrest
    rw [List.map_cons, List.map_cons, State.setEnv_afterGroups_cons (mid := polled) (taken := taken),
      State.setPhase_afterPolls]
    exact .awaitReady hs hbusy hv (.write hpolled hjw (by simpa using hw) (.of_act hsent trivial rfl hend))

/-! initialize. -/

section
variable {s : State} {env : Env}

/-- At once, when every first poll shows ready. -/
theorem exec_initialize_of_sends {sends : List (Phase × Byte × Word10)}
    (hconf : sends.map (fun x => (x.2.2, x.1)) = configuration) (hq : s.seq = .idle) (hr : s.atRest = true)
    (h : Env.Sends (sends.map Prod.snd) s.env env) :
    exec .initializeDisplay s =
      .next (((s.afterStartup.afterSends (sends.map Prod.snd) env).setPhase .ready).complete .nothing) := by
  have hj := exists_encode_of_mem_configuration
  rw [← hconf, List.forall_mem_map] at hj
  rw [exec_initialize_eq hq, ← hconf, ← State.setPhase_afterSends]
  exact runActions_sendConfiguring (s := s.afterStartup.setPhase .powerOn) hj hr h

/-- After any number of busy polls before each word, in a number of steps. -/
theorem thenSteps_exec_initialize {groups : List (Phase × List Byte × Byte × Word10)}
    (hconf : groups.map (fun g => (g.2.2.2, g.1)) = configuration) (hq : s.seq = .idle) (hr : s.atRest = true)
    (hrst : s.rst = false) (hbound : s.params.maxPolls = none) (h : Env.SendsAfter (groups.map Prod.snd) s.env env) :
    ∃ k, thenSteps k (exec .initializeDisplay s) =
      .next (((s.afterStartup.afterGroups (groups.map Prod.snd) env).setPhase .ready).complete .nothing) := by
  have hj := exists_encode_of_mem_configuration
  rw [← hconf, List.forall_mem_map] at hj
  rw [exec_initialize_eq hq, ← hconf, ← State.setPhase_afterGroups]
  exact (endsIn_sendConfiguring (s := s.afterStartup.setPhase .powerOn) hj ⟨hrst, rfl, hbound, hr⟩ h).1

end

/-- Settles O28: the four words with their phases and polls are those of `configuration`. -/
theorem initializeEndsReady : Obligations.InitializeEndsReady := by
  refine ⟨fun s v₁ v₂ v₃ v₄ env' hq hr h => ?_, fun s b₁ b₂ b₃ b₄ v₁ v₂ v₃ v₄ env' hq hr hrst hbound h => ?_⟩
  · exact exec_initialize_of_sends (sends := [(.functionConfigured, v₁, 0x038#10), (.displayConfigured, v₂, 0x00E#10),
      (.entryConfigured, v₃, 0x006#10), (.cleared, v₄, 0x001#10)]) rfl hq hr h
  · exact thenSteps_exec_initialize (groups := [(.functionConfigured, b₁, v₁, 0x038#10),
      (.displayConfigured, b₂, v₂, 0x00E#10), (.entryConfigured, b₃, v₃, 0x006#10), (.cleared, b₄, v₄, 0x001#10)])
      rfl hq hr hrst hbound h

end Sys2Proof.Machine
end

section
/-! SUPPORT. The reference chip (R74): what each of its reactions can be, and what becomes of its memories. -/

namespace Sys2Proof.Machine

/-! A status read. -/

/-- A byte with its top bit set is busy. -/
theorem busyFlag_of_or (x : BitVec 7) : busyFlag (0x80#8 ||| x.setWidth 8) = true := by
  simp [busyFlag]

/-- A counter below 0x80 is not. -/
theorem busyFlag_setWidth (x : BitVec 7) : busyFlag (x.setWidth 8) = false := by
  simp [busyFlag]

/-- The low seven bits of a counter's byte are the counter (R28, R94). -/
theorem extract_setWidth (x : BitVec 7) : (x.setWidth 8).extractLsb' 0 7 = x := by
  rw [← BitVec.setWidth_eq_extractLsb' (by decide), BitVec.setWidth_setWidth_of_le x (by decide), BitVec.setWidth_eq]

/-- What a status read answers, case by case. -/
theorem Chip.readStatus_cases (c : Chip) :
    (c.refusing = true ∧ c.readStatus = .error .chipNarrowBus) ∨
    (c.refusing = false ∧ c.busy ≠ 0 ∧ ∃ v, busyFlag v = true ∧
      c.readStatus = .ok (v, { c with busy := c.busy - 1, draws := c.draws.next.2 })) ∨
    (c.refusing = false ∧ c.busy = 0 ∧ c.readStatus = .ok (c.ac.setWidth 8, c)) := by
  cases hf : c.refusing with
  | true => exact .inl ⟨rfl, by simp [Chip.readStatus, hf]⟩
  | false =>
    by_cases hb : c.busy = 0
    · exact .inr (.inr ⟨rfl, hb, by simp [Chip.readStatus, hf, hb]⟩)
    · exact .inr (.inl ⟨rfl, hb, _, busyFlag_of_or (BitVec.ofNat 7 c.draws.next.1), by simp [Chip.readStatus, hf, hb]⟩)

/-- Settles O49: a busy chip counts one read down; a ready one shows its counter and is as it was. -/
theorem statusReadIsHarmless : Obligations.StatusReadIsHarmless := by
  intro c c' v h
  rcases c.readStatus_cases with ⟨-, e⟩ | ⟨-, hb, u, hu, e⟩ | ⟨-, hb, e⟩ <;> rw [e] at h <;> cases h
  · exact ⟨rfl, by simp [hu, hb], fun hno => absurd hno hb⟩
  · have hsame : c = { c with busy := c.busy - 1, draws := c.draws } := by
      rw [hb, Nat.zero_sub, ← hb]
    exact ⟨hsame, by simp [busyFlag_setWidth, hb], fun _ => ⟨extract_setWidth c.ac, rfl⟩⟩

/-! A data read and a word. -/

/-- What a data read leaves when it is not refused. -/
theorem Chip.readData_ok {c c' : Chip} {v : Byte} (h : c.readData = .ok (v, c')) :
    c.atCell = true ∧ v = c.readCell ∧ c' = c.advance.startBusy := by
  unfold Chip.readData at h
  split_ifs at h with hf hb hc
  cases h
  exact ⟨hc, rfl, rfl⟩

/-- What a word leaves when it is not refused: the effect of the instruction it decodes to, and a fresh busy count. -/
theorem Chip.write_ok {c c' : Chip} {w : Word10} (h : c.write w = .ok c') :
    ∃ i c₁, decodeWord w = .ok i ∧ c.execute i = .ok c₁ ∧ c' = c₁.startBusy := by
  unfold Chip.write at h
  split_ifs at h with hf hb
  split at h
  · cases h
  · rename_i i hi
    split at h
    · cases h
    · rename_i c₁ he
      cases h
      exact ⟨i, c₁, hi, he, rfl⟩

/-- What becomes of the memories under an instruction word: write data stores in the counter's cell, clear empties
DDRAM, and the others leave both. -/
theorem Chip.execute_memory {c c₁ : Chip} {i : Instr} (h : c.execute i = .ok c₁) :
    (∃ v, i = .wData v ∧ c.atCell = true ∧ c₁ = (c.writeCell v).advance) ∨
    (i = .wClear ∧ c₁ = { c with ddram := [], ac := 0#7, sel := .ddram, shift := 0, increment := true }) ∨
    (i ≠ .wClear ∧ (∀ v, i ≠ .wData v) ∧ c₁.ddram = c.ddram ∧ c₁.cgram = c.cgram) := by
  cases i with
  | wData v =>
    simp only [Chip.execute] at h
    split at h
    · cases h
      exact .inl ⟨v, rfl, ‹_›, rfl⟩
    · cases h
  | wClear =>
    cases h
    exact .inr (.inl ⟨rfl, rfl⟩)
  | wShift sh d => cases sh <;> cases h <;> exact .inr (.inr ⟨nofun, nofun, rfl, rfl⟩)
  | _ => cases h <;> exact .inr (.inr ⟨nofun, nofun, rfl, rfl⟩)

/-! The canonical form. -/

/-- Only the memories count. -/
theorem Chip.wf_of_memory {c c' : Chip} (hd : c'.ddram = c.ddram) (hg : c'.cgram = c.cgram) (h : c.wf) : c'.wf := by
  rwa [Chip.wf, hd, hg]

/-- A byte written at a cell. -/
theorem Chip.writeCell_wf {c : Chip} (h : c.wf) (hc : c.atCell = true) (v : Byte) : (c.writeCell v).wf := by
  obtain ⟨hd, hg, hdb, hgb⟩ := h
  cases hs : c.sel with
  | ddram =>
    have hcell : c.ac.toNat ≤ 0x27 ∨ (0x40 ≤ c.ac.toNat ∧ c.ac.toNat ≤ 0x67) := by
      simpa [Chip.atCell, hs, isDdramCell] using hc
    rw [Chip.writeCell, hs]
    refine ⟨Memory.write_wf hd .., hg, fun p hp => ?_, hgb⟩
    rcases Memory.mem_write hp with hp | ⟨rfl, -⟩
    · exact hdb p hp
    · exact hcell
  | cgram =>
    have hcell : c.ac.toNat < 64 := by simpa [Chip.atCell, hs] using hc
    rw [Chip.writeCell, hs]
    refine ⟨hd, Memory.write_wf hg .., hdb, fun p hp => ?_⟩
    rcases Memory.mem_write hp with hp | ⟨rfl, -⟩
    · exact hgb p hp
    · exact hcell

/-- A word keeps the form. -/
theorem Chip.write_wf {c c' : Chip} {w : Word10} (hc : c.wf) (h : c.write w = .ok c') : c'.wf := by
  obtain ⟨i, c₁, -, he, rfl⟩ := Chip.write_ok h
  rcases Chip.execute_memory he with ⟨v, -, hcell, rfl⟩ | ⟨-, rfl⟩ | ⟨-, -, hd, hg⟩
  · exact Chip.writeCell_wf hc hcell v
  · obtain ⟨-, hg, -, hgb⟩ := hc
    exact ⟨⟨.nil, nofun⟩, hg, nofun, hgb⟩
  · exact Chip.wf_of_memory (c := c) hd hg hc

/-- So does every word the environment takes. -/
theorem Env.write_wf {env env' : Env} {w : Word10} (hwf : env.wf) (h : env.write w = .ok env') : env'.wf := by
  cases env with
  | oracle d =>
    cases h
    trivial
  | reference c =>
    simp only [Env.write] at h
    split at h <;> cases h
    exact Chip.write_wf (c := c) hwf ‹_›

/-- A read of the reference chip leaves its memories. -/
theorem Env.read_reference {c : Chip} {env' : Env} {rs : Bool} {v : Byte}
    (h : (Env.reference c).read rs = .ok (v, env')) :
    ∃ c', env' = .reference c' ∧ c'.ddram = c.ddram ∧ c'.cgram = c.cgram := by
  simp only [Env.read] at h
  split at h <;> cases h
  rename_i c' hread
  refine ⟨c', rfl, ?_⟩
  cases rs with
  | true =>
    obtain ⟨-, -, rfl⟩ := Chip.readData_ok hread
    exact ⟨rfl, rfl⟩
  | false =>
    obtain ⟨hc', -⟩ := statusReadIsHarmless c c' v hread
    rw [hc']
    exact ⟨rfl, rfl⟩

/-- And every read. -/
theorem Env.read_wf {env env' : Env} {rs : Bool} {v : Byte} (hwf : env.wf) (h : env.read rs = .ok (v, env')) :
    env'.wf := by
  cases env with
  | oracle d =>
    cases h
    trivial
  | reference c =>
    obtain ⟨c', rfl, hd, hg⟩ := Env.read_reference h
    exact Chip.wf_of_memory (c := c) hd hg hwf

/-- A position keeps the form, and the parameters. -/
theorem act_envWf {a : Action} {s t : State} (h : (act a s).leaves t) (hs : s.env.wf) : t.env.wf := by
  rcases act_leaves h with ⟨p, v, env, -, -, henv, ht⟩ | ⟨k, -, rfl⟩ | ⟨-, rfl⟩ | ⟨p, -, rfl⟩ | ⟨-, rfl⟩ |
    ⟨w, env, -, -, -, henv, rfl⟩ | ⟨sel, v, env, -, -, -, henv, rfl⟩ | ⟨r, -, rfl⟩
  · have hread := Env.read_wf hs henv
    rcases ht with rfl | ⟨-, -, rfl⟩ <;> exact hread
  · exact hs
  · exact hs
  · exact hs
  · exact hs
  · exact Env.write_wf hs henv
  · exact Env.read_wf hs henv
  · exact hs

/-- Settles O47: the environment answers only at a position, and nothing writes the parameters. -/
theorem chipMemoryStaysCanonical : Obligations.ChipMemoryStaysCanonical := by
  intro s t hs h
  have hstep := step_induction (R := fun s t => (s.env.wf → t.env.wf) ∧ t.params = s.params) (fun _ => ⟨id, rfl⟩)
    (fun _ _ _ h k => ⟨fun hs => k.1 (h.1 hs), k.2.trans h.2⟩) (fun _ _ _ h => ⟨act_envWf h, (act_frame h).params⟩)
    (fun _ => ⟨id, rfl⟩) (fun _ _ => ⟨id, rfl⟩) (fun _ _ => ⟨id, rfl⟩) (fun _ => ⟨id, rfl⟩) (fun _ => ⟨id, rfl⟩) h
  exact ⟨hstep.1 hs, hstep.2⟩

/-! Each byte. -/

/-- After a byte is written at the counter's cell, DDRAM byte by byte. -/
theorem Chip.read_ddram_writeCell {c : Chip} (h : c.wf) (v : Byte) (a : Nat) :
    Memory.read (c.writeCell v).ddram a = if c.sel = .ddram ∧ a = c.ac.toNat then v else Memory.read c.ddram a := by
  by_cases hs : c.sel = .ddram
  · simp [Chip.writeCell_eq, hs, Memory.read_write h.1, eq_comm (a := a)]
  · simp [Chip.writeCell_eq, hs]

/-- CGRAM the same. -/
theorem Chip.read_cgram_writeCell {c : Chip} (h : c.wf) (v : Byte) (a : Nat) :
    Memory.read (c.writeCell v).cgram a = if c.sel = .cgram ∧ a = c.ac.toNat then v else Memory.read c.cgram a := by
  by_cases hs : c.sel = .cgram
  · simp [Chip.writeCell_eq, hs, Memory.read_write h.2.1, eq_comm (a := a)]
  · simp [Chip.writeCell_eq, hs]

/-- The counter after write data. -/
theorem Chip.ac_advance_writeCell (c : Chip) (v : Byte) :
    (c.writeCell v).advance.ac = addressStep c.sel c.ac c.increment := by
  rw [Chip.writeCell_eq]
  rfl

/-- Settles O48: a word by `Chip.execute_memory`, a selector by `Env.read_reference`; a fresh busy count is no memory.
-/
theorem chipMemoryUnderEachInstruction : Obligations.ChipMemoryUnderEachInstruction := by
  intro i s t c hs hwf hop h
  rcases exec_next h with ⟨hno, -⟩ | ⟨hno, -⟩ | ⟨w, env, hw, -, -, henv, rfl⟩ | ⟨sel, v, env, hsel, -, -, henv, rfl⟩
  · exact absurd (hno.symm.trans hop) nofun
  · exact absurd (hno.symm.trans hop) nofun
  · rw [hs, Env.write] at henv
    split at henv <;> cases henv
    rename_i c' hwrite
    obtain ⟨j, c₁, hj, he, rfl⟩ := Chip.write_ok hwrite
    cases (decodeWord_of_encode hw).symm.trans hj
    refine ⟨_, rfl, ?_⟩
    rcases Chip.execute_memory he with ⟨v, rfl, -, rfl⟩ | ⟨rfl, rfl⟩ | ⟨hclear, hdata, hd, hg⟩
    · refine ⟨?_, nofun, fun _ hdata => absurd rfl (hdata v)⟩
      rintro u ⟨⟩
      exact ⟨c.ac_advance_writeCell v, fun a => ⟨Chip.read_ddram_writeCell hwf v a, Chip.read_cgram_writeCell hwf v a⟩⟩
    · exact ⟨nofun, fun _ => ⟨rfl, rfl, rfl, rfl, fun _ => ⟨rfl, rfl⟩⟩, fun hclear => absurd rfl hclear⟩
    · exact ⟨fun v hi => absurd hi (hdata v), fun hi => absurd hi hclear,
        fun _ _ a => ⟨congrArg (Memory.read · a) hd, congrArg (Memory.read · a) hg⟩⟩
  · rw [hs] at henv
    obtain ⟨c', rfl, hd, hg⟩ := Env.read_reference henv
    refine ⟨c', rfl, ?_, ?_, fun _ _ a => ⟨congrArg (Memory.read · a) hd, congrArg (Memory.read · a) hg⟩⟩
    · rintro v rfl
      cases hsel
    · rintro rfl
      cases hsel

end Sys2Proof.Machine
end

section
/-! SUPPORT. Operations with the reference chip: its busy count is finite (R74), so that every ready-wait ends; what
then is left is the chip's own refusals. -/

namespace Sys2Proof.Machine

/-! A ready-wait. -/

/-- The chip with its busy count at 0, after some draws. -/
def Chip.settled (c : Chip) (d : Draws) : Chip := { c with busy := 0, draws := d }

/-- The reference chip shows busy a number of times, and then its counter. -/
theorem Chip.exists_busyFor {c : Chip} (hf : c.refusing = false) :
    ∃ vs v d, Env.BusyFor vs (.reference c) (.reference (c.settled d)) ∧
      (Env.reference (c.settled d)).AnswersReady v (.reference (c.settled d)) := by
  generalize hn : c.busy = n
  induction n generalizing c with
  | zero =>
    have hsettled : c.settled c.draws = c := by rw [Chip.settled, ← hn]
    rcases c.readStatus_cases with ⟨hr, -⟩ | ⟨-, hb, -⟩ | ⟨-, -, e⟩
    · simp [hf] at hr
    · exact absurd hn hb
    · refine ⟨[], c.ac.setWidth 8, c.draws, congrArg Env.reference hsettled.symm, ?_, busyFlag_setWidth c.ac⟩
      simp [hsettled, Env.read, e]
  | succ n ih =>
    rcases c.readStatus_cases with ⟨hr, -⟩ | ⟨-, -, u, hu, e⟩ | ⟨-, hb, -⟩
    · simp [hf] at hr
    · obtain ⟨vs, v, d, hbusy, hv⟩ := ih (c := { c with busy := c.busy - 1, draws := c.draws.next.2 }) hf (by simp [hn])
      exact ⟨u :: vs, v, d, ⟨_, ⟨by simp [Env.read, e], hu⟩, hbusy⟩, hv⟩
    · simp [hn] at hb

/-! The small steps of an operation. -/

/-- The operation's small steps from these positions come to an end, or the chip refuses one: for a gap, or, if
`narrow`, for the narrow bus. -/
def State.Stops (narrow : Prop) (op : Instr) (todo : List Action) (s : State) : Prop :=
  ∃ n, (∃ t, runSteps n (s.setSeq (.running op todo)) = .next t ∧ t.seq = .idle) ∨
    runSteps n (s.setSeq (.running op todo)) = .refused .chipGap ∨
    (narrow ∧ runSteps n (s.setSeq (.running op todo)) = .refused .chipNarrowBus)

section
variable {narrow : Prop} {op : Instr} {a : Action} {rest : List Action} {s u : State}

/-- After some steps the operation stands before positions from which it stops. -/
theorem State.Stops.of_runSteps {todo : List Action} {k : Nat}
    (hk : runSteps k (s.setSeq (.running op todo)) = .next (u.setSeq (.running op rest)))
    (h : u.Stops narrow op rest) : s.Stops narrow op todo := by
  obtain ⟨n, hn⟩ := h
  exact ⟨k + n, by rwa [runSteps_add hk n]⟩

theorem runSteps_one_setSeq (h : s.Undisturbed) (ha : a.Fetchable) :
    runSteps 1 (s.setSeq (.running op (a :: rest))) = runOneAction op (a :: rest) s := by
  rw [runSteps_one, step_setSeq h.rst h.rsp ha]

/-- The operation moves on. -/
theorem State.Stops.onward (h : s.Undisturbed) (ha : a.Fetchable) (hact : act a s = .onward u)
    (hrest : u.Stops narrow op rest) : s.Stops narrow op (a :: rest) :=
  .of_runSteps (k := 1) (by rw [runSteps_one_setSeq h ha, runOneAction, hact]) hrest

/-- It ends. -/
theorem State.Stops.ended (h : s.Undisturbed) (ha : a.Fetchable) (hact : act a s = .ended u) :
    s.Stops narrow op (a :: rest) :=
  ⟨1, .inl ⟨u, by rw [runSteps_one_setSeq h ha, runOneAction, hact], seq_of_ended hact⟩⟩

/-- The chip refuses a data access at no cell. -/
theorem State.Stops.gap (h : s.Undisturbed) (ha : a.Fetchable) (hact : act a s = .refused .chipGap) :
    s.Stops narrow op (a :: rest) :=
  ⟨1, .inr (.inl (by rw [runSteps_one_setSeq h ha, runOneAction, hact]))⟩

/-- The chip refuses everything. -/
theorem State.Stops.narrowBus (h : s.Undisturbed) (ha : a.Fetchable) (hact : act a s = .refused .chipNarrowBus)
    (hn : narrow) : s.Stops narrow op (a :: rest) :=
  ⟨1, .inr (.inr ⟨hn, by rw [runSteps_one_setSeq h ha, runOneAction, hact]⟩)⟩

end

/-- Moving on, an operation stays undisturbed. -/
theorem State.Undisturbed.of_onward {a : Action} {s u : State} (h : s.Undisturbed) (hact : act a s = .onward u) :
    u.Undisturbed where
  rst := (act_frame (.inl hact)).rst.trans h.rst
  rsp := (sameFlight_of_onward hact).rsp.trans h.rsp
  unbounded := (congrArg Params.maxPolls (act_frame (.inl hact)).params).trans h.unbounded
  atRest := act_atRest (.inl hact) h.atRest

/-! The chip's refusals at a position. -/

/-- A refusing chip refuses every read and word. -/
theorem Env.read_refusing {c : Chip} (hf : c.refusing = true) (rs : Bool) :
    (Env.reference c).read rs = .error .chipNarrowBus := by
  cases rs <;> simp [Env.read, Chip.readData, Chip.readStatus, hf]

theorem Env.write_refusing {c : Chip} (hf : c.refusing = true) (w : Word10) :
    (Env.reference c).write w = .error .chipNarrowBus := by
  simp [Env.write, Chip.write, hf]

/-- A position whose read the environment refuses. -/
theorem act_read_refused {s : State} {sel : BitVec 2} {r : Refusal} (hr : s.atRest = true) (hrw : sel[0] = true)
    (henv : s.env.read sel[1] = .error r) : act (.read sel) s = .refused r := by
  simp [act, readTransaction, readBus, hrw, hr, henv, progressOf]

/-- A poll it refuses. -/
theorem act_awaitReady_refused {s : State} {r : Refusal} (p : Nat) (hr : s.atRest = true)
    (henv : s.env.read false = .error r) : act (.awaitReady p) s = .refused r := by
  simp [act, pollOnce, readBus, hr, henv]

/-- A word it refuses. -/
theorem act_write_refused {s : State} {w : Word10} {r : Refusal} (hr : s.atRest = true) (hw : w[8] = false)
    (henv : s.env.write w = .error r) : act (.write w) s = .refused r := by
  simp [act, writeTransaction, hw, hr, henv, progressOf]

/-- A ready chip that is not refusing executes every instruction word, but for a byte at no cell; and it is refusing
afterwards only if the word narrows the bus. -/
theorem Chip.execute_word {c : Chip} {j : Instr} {w : Word10} (hf : c.refusing = false) (hj : encode j = .word w) :
    (∃ c', c.execute j = .ok c' ∧ (c'.refusing = true → j.narrowsBus = true)) ∨ c.execute j = .error .chipGap := by
  cases j with
  | wData v =>
    by_cases hc : c.atCell = true
    · exact .inl ⟨(c.writeCell v).advance, if_pos hc, by simp [Chip.writeCell_eq, Chip.advance, hf]⟩
    · exact .inr (if_neg hc)
  | wShift sh d => cases sh <;> exact .inl ⟨_, rfl, by simp [hf]⟩
  | wFuncset l n f => exact .inl ⟨_, rfl, by simp [hf, Instr.narrowsBus]⟩
  | wClear => exact .inl ⟨_, rfl, by simp [hf]⟩
  | wHome => exact .inl ⟨_, rfl, by simp [hf]⟩
  | wEntry x y => exact .inl ⟨_, rfl, by simp [hf]⟩
  | wDispctl d cur b => exact .inl ⟨_, rfl, by simp [hf]⟩
  | wSetcg a => exact .inl ⟨_, rfl, by simp [hf]⟩
  | wSetdd a => exact .inl ⟨_, rfl, by simp [hf]⟩
  | _ => cases hj

/-- A data read at a cell, of a ready chip. -/
theorem Env.read_data {c : Chip} (hf : c.refusing = false) (hb : c.busy = 0) (hc : c.atCell = true) :
    (Env.reference c).read true = .ok (c.readCell, .reference c.advance.startBusy) := by
  simp [Env.read, Chip.readData, hf, hb, hc]

/-- A chip that is not refusing answers every read, but for a data read at no cell, if it is ready for a data read;
and it is not refusing afterwards. -/
theorem Env.read_notRefusing {c : Chip} (hf : c.refusing = false) {rs : Bool} (hb : rs = true → c.busy = 0) :
    (∃ v c', (Env.reference c).read rs = .ok (v, .reference c') ∧ c'.refusing = false) ∨
      (Env.reference c).read rs = .error .chipGap := by
  cases rs with
  | false =>
    rcases c.readStatus_cases with ⟨hr, -⟩ | ⟨-, -, v, -, e⟩ | ⟨-, -, e⟩
    · simp [hf] at hr
    · exact .inl ⟨v, { c with busy := c.busy - 1, draws := c.draws.next.2 }, by simp [Env.read, e], hf⟩
    · exact .inl ⟨c.ac.setWidth 8, c, by simp [Env.read, e], hf⟩
  | true =>
    by_cases hc : c.atCell = true
    · exact .inl ⟨_, _, Env.read_data hf (hb rfl) hc, hf⟩
    · exact .inr (by simp [Env.read, Chip.readData, hf, hb, hc])

/-- A word that the chip refuses for a gap. -/
theorem Env.write_gap {c : Chip} {j : Instr} {w : Word10} (hf : c.refusing = false) (hb : c.busy = 0)
    (hj : encode j = .word w) (he : c.execute j = .error .chipGap) :
    (Env.reference c).write w = .error .chipGap := by
  simp [Env.write, Chip.write, hf, hb, decodeWord_of_encode hj, he]

/-- One it takes. -/
theorem Env.write_reference {c c' : Chip} {j : Instr} {w : Word10} (hf : c.refusing = false) (hb : c.busy = 0)
    (hj : encode j = .word w) (he : c.execute j = .ok c') :
    (Env.reference c).write w = .ok (.reference c'.startBusy) := by
  simp [Env.write, Chip.write_of_execute hf hb hj he]

/-! Every operation stops. -/

/-- Pseudocode that has run out returns. -/
theorem State.Stops.nil {narrow : Prop} {op : Instr} {s : State} (h : s.Undisturbed) : s.Stops narrow op [] := by
  refine ⟨1, .inl ⟨(s.setSeq (.running op [])).clearResponse.complete .nothing, ?_, rfl⟩⟩
  simp only [runSteps_one, step, fetch_running (s := s.setSeq (.running op [])) h.rst rfl, fetchPosition]
  rfl

/-- An operation stops from any of its positions with each instruction after a ready-wait: there the chip is ready. It
is refused for the narrow bus only if the chip refuses already or the operation narrows the bus. -/
theorem stops_reference {op i : Instr} {narrow : Prop} (hi : i.narrowsBus = true → narrow) {todo : List Action}
    (htodo : ∀ a ∈ todo, a.AllowedIn i) (hcode : GuardedCode todo) {s : State} {c : Chip} (hs : s.Undisturbed)
    (henv : s.env = .reference c) (hf : c.refusing = true → narrow)
    (hhead : ∀ a ∈ todo.head?, a.isInstruction = true → c.busy = 0) : s.Stops narrow op todo := by
  induction todo generalizing s c with
  | nil => exact .nil hs
  | cons a rest ih =>
    obtain ⟨ha, hrest⟩ := List.forall_mem_cons.mp htodo
    have hgo {u : State} {c' : Chip} (hact : act a s = .onward u) (hu : u.env = .reference c')
        (hf' : c'.refusing = true → narrow) (hpoll : a.isPoll = false) : s.Stops narrow op (a :: rest) :=
      .onward hs ha.fetchable hact (ih hrest hcode.tail (hs.of_onward hact) hu hf'
        fun b hb hinstr => absurd ((hcode.rel_head? hb hinstr).symm.trans hpoll) nofun)
    cases a with
    | delay k => exact hgo rfl henv hf rfl
    | enableTiming => exact hgo rfl henv hf rfl
    | enterPhase p => exact hgo rfl henv hf rfl
    | takeByte => exact hgo rfl henv hf rfl
    | respond r => exact .ended hs trivial rfl
    | awaitReady p =>
      cases hr : c.refusing with
      | true =>
        have hread : s.env.read false = .error .chipNarrowBus := henv ▸ Env.read_refusing hr false
        exact .narrowBus hs trivial (act_awaitReady_refused p hs.atRest hread) (hf hr)
      | false =>
        obtain ⟨vs, v, d, hbusy, hv⟩ := Chip.exists_busyFor hr
        rw [← henv] at hbusy
        have hpolls := (hs.atWait op p rest).runSteps_ready hbusy
          (fun m hm => absurd (hs.unbounded.symm.trans hm) nofun) hv
        rw [State.setSeq_afterPolls] at hpolls
        have hend := ih hrest hcode.tail (hs.afterPolls (vs ++ [v]) (.reference (c.settled d)))
          (s.afterPolls_concat_env vs v _) hf fun _ _ _ => rfl
        exact .of_runSteps hpolls hend
    | write w =>
      obtain ⟨-, j, hj, hnarrow⟩ := ha
      have h8 := Laws.WordRwClear.all j w hj
      have hb : c.busy = 0 := hhead _ rfl rfl
      cases hr : c.refusing with
      | true =>
        have hwrite : s.env.write w = .error .chipNarrowBus := henv ▸ Env.write_refusing hr w
        exact .narrowBus hs ⟨j, hj⟩ (act_write_refused hs.atRest h8 hwrite) (hf hr)
      | false =>
        rcases Chip.execute_word hr hj with ⟨c', he, hn⟩ | he
        · have hwrite : s.env.write w = .ok (.reference c'.startBusy) := henv ▸ Env.write_reference hr hb hj he
          exact hgo (act_write hs.atRest h8 hwrite) rfl (fun hr' => hi (hnarrow (hn hr'))) rfl
        · exact .gap hs ⟨j, hj⟩ (act_write_refused hs.atRest h8 (henv ▸ Env.write_gap hr hb hj he))
    | read sel =>
      obtain ⟨j, hj⟩ := ha
      have hrw := rw_of_decodeSelector hj
      have hb (h1 : sel[1] = true) : c.busy = 0 :=
        hhead _ rfl (by simp [Action.isInstruction, selectorData_of_bits hrw h1])
      cases hr : c.refusing with
      | true =>
        have hread : s.env.read sel[1] = .error .chipNarrowBus := henv ▸ Env.read_refusing hr sel[1]
        exact .narrowBus hs ⟨j, hj⟩ (act_read_refused hs.atRest hrw hread) (hf hr)
      | false =>
        rcases Env.read_notRefusing hr hb with ⟨v, c', hread, hr'⟩ | hread
        · exact hgo (act_read hs.atRest hrw (henv ▸ hread)) rfl (fun h => absurd (hr'.symm.trans h) nofun) rfl
        · exact .gap hs ⟨j, hj⟩ (act_read_refused hs.atRest hrw (henv ▸ hread))

/-- The word of an instruction goes to a chip that is not refusing: the operation that sends it comes to its end. -/
theorem exists_runSteps_sendWord {op j : Instr} {w : Word10} {s : State} {c : Chip} (hs : s.Undisturbed)
    (henv : s.env = .reference c) (hr : c.refusing = false) (hj : encode j = .word w)
    (he : ∀ d, ∃ c', (c.settled d).execute j = .ok c') :
    ∃ n t, runSteps n (s.setSeq (.running op (sendWord w))) = .next t ∧ t.seq = .idle := by
  obtain ⟨vs, v, d, hbusy, hv⟩ := Chip.exists_busyFor hr
  obtain ⟨c', he⟩ := he d
  have hsends : Env.SendsAfter [(vs, v, w)] s.env (.reference c'.startBusy) :=
    ⟨_, _, _, henv ▸ hbusy, hv, Env.write_reference hr rfl hj he, rfl⟩
  obtain ⟨-, n, hn⟩ := endsIn_sendWords (op := op) (by simpa using ⟨j, hj⟩) hs hsends
  exact ⟨n, _, hn, rfl⟩

/-- Settles O51: the whole program stops, but that function set with l = 0, sent to a chip that is not refusing yet,
ends before the chip refuses anything. -/
theorem operationsEndWithTheReferenceChip : Obligations.OperationsEndWithTheReferenceChip := by
  intro i s c hop hrst hrest hbound henv
  have hs : s.clearResponse.Undisturbed := ⟨hrst, rfl, hbound, hrest⟩
  obtain ⟨hcode, hhead⟩ := entryGuarded_program s.strPops hop
  by_cases hn : i.narrowsBus = true ∧ c.refusing = false
  · obtain ⟨hi, hr⟩ := hn
    cases i with
    | functionSet bits lines font =>
      obtain ⟨n, hend⟩ := exists_runSteps_sendWord (op := .functionSet bits lines font)
        (j := .wFuncset (boolOf bits) (boolOf lines) (boolOf font)) hs henv hr rfl fun d => ⟨_, rfl⟩
      exact ⟨n, .inl hend⟩
    | wFuncset l n f => cases hop
    | _ => cases hi
  · refine stops_reference (narrow := c.refusing = true) (fun hi => ?_) allowedIn_of_mem_program hcode hs henv id
      fun a ha hinstr => absurd (hinstr.symm.trans (hhead a ha)) nofun
    simpa [hi] using hn

end Sys2Proof.Machine
end

section
/-! SUPPORT. The round trip (R75): commands presented one after the other to a block with the reference chip. -/

namespace Sys2Proof.Machine

/-! A run of polls keeps PHASE and the port. -/

@[simp] theorem State.afterPolls_phase (s : State) (vs : List Byte) (env : Env) :
    (s.afterPolls vs env).phase = s.phase := by
  induction vs generalizing s with
  | nil => rfl
  | cons v vs ih => exact ih (s.afterRead false v env)

@[simp] theorem State.afterPolls_host (s : State) (vs : List Byte) (env : Env) :
    (s.afterPolls vs env).host = s.host := by
  induction vs generalizing s with
  | nil => rfl
  | cons v vs ih => exact ih (s.afterRead false v env)

/-! One command. -/

/-- The block accepts the first of these commands, with this chip on the bus. -/
structure State.ReadyWith (s : State) (c : Chip) (cmds : List Command) : Prop where
  accepts : s.Accepts
  rst : s.rst = false
  unbounded : s.params.maxPolls = none
  env : s.env = .reference c
  host : s.host = cmds

section
variable {s : State} {c : Chip} {k : Command} {cmds : List Command}

/-- A command that sends the word of an instruction `j` leaves the block ready for the next, and the chip as `j`
leaves it, with a fresh busy count. -/
theorem State.ReadyWith.send {i j : Instr} {w : Word10} {f : Draws → Chip} (h : s.ReadyWith c (k :: cmds))
    (hr : c.refusing = false) (hd : decode (.command k) = .ok i) (hprog : program s.strPops i = sendWord w)
    (hj : encode j = .word w) (he : ∀ d, (c.settled d).execute j = .ok (f d)) :
    ∃ n t d, runSteps n s = .next t ∧ t.ReadyWith (f d).startBusy cmds ∧ t.results = s.results ++ [.nothing] := by
  obtain ⟨vs, v, d, hbusy, hv⟩ := Chip.exists_busyFor hr
  have hrun := writeOperationsCompleteAfterTheChipIsReady s k cmds i w vs _ v _ _ h.accepts h.rst h.unbounded h.host hd
    hprog (h.env ▸ hbusy) hv (Env.write_reference hr rfl hj (he d))
  have hs : (s.clearResponse.setHost cmds).Undisturbed := ⟨h.rst, rfl, h.unbounded, h.accepts.rest⟩
  have hpolled := hs.afterPolls (vs ++ [v]) (.reference (c.settled d))
  have hphase := (State.afterPolls_phase (s.clearResponse.setHost cmds) (vs ++ [v]) (.reference (c.settled d))).trans
    h.accepts.ready
  have hresults := State.afterPolls_results (s.clearResponse.setHost cmds) (vs ++ [v]) (.reference (c.settled d))
  exact ⟨_, _, d, hrun, ⟨⟨rfl, hphase, rfl⟩, hpolled.rst, hpolled.unbounded, rfl, State.afterPolls_host ..⟩,
    congrArg (· ++ [Result.nothing]) hresults⟩

/-- read-byte with the counter at a cell answers the byte there. -/
theorem State.ReadyWith.readByte (h : s.ReadyWith c (k :: cmds)) (hr : c.refusing = false)
    (hd : decode (.command k) = .ok .readByte) (hc : c.atCell = true) :
    ∃ n t, runSteps n s = .next t ∧ t.seq = .idle ∧ t.host = cmds ∧ t.results = s.results ++ [.byte c.readCell] := by
  obtain ⟨vs, v, d, hbusy, hv⟩ := Chip.exists_busyFor hr
  have hread : (Env.reference (c.settled d)).read true = .ok (c.readCell, .reference (c.settled d).advance.startBusy) :=
    Env.read_data (c := c.settled d) hr rfl hc
  have hs : (s.clearResponse.setHost cmds).Accepts := ⟨h.accepts.idle, h.accepts.ready, h.accepts.rest⟩
  obtain ⟨n, hn⟩ := readByteAnswersTheDataRead.2.2 (s.clearResponse.setHost cmds) vs _ v _ _ _ hs h.rst h.unbounded
    (h.env ▸ hbusy) hv hread
  rw [← step_command h.rst h.accepts.idle h.host hd, ← runSteps_succ] at hn
  have hresults := State.afterPolls_results (s.clearResponse.setHost cmds) (vs ++ [v]) (.reference (c.settled d))
  exact ⟨n + 1, _, hn, rfl, State.afterPolls_host (s.clearResponse.setHost cmds) ..,
    congrArg (· ++ [Result.byte c.readCell]) hresults⟩

end

/-! The round trip. -/

/-- Settles O50: write-byte stores the byte and moves the counter, set-DDRAM-address moves it back, and read-byte
reads that cell. -/
theorem roundTripReturnsTheByteWritten : Obligations.RoundTripReturnsTheByteWritten := by
  intro s c v kw kd kr cmds hs hrst hbound henv hwf hr hsel hcell hh hw hd hread
  have hatCell : c.atCell = true := by rwa [Chip.atCell, hsel]
  have hready : s.ReadyWith c (kw :: kd :: kr :: cmds) := ⟨hs, hrst, hbound, henv, hh⟩
  obtain ⟨n₁, t₁, d₁, hn₁, ht₁, hres₁⟩ := hready.send (j := .wData v)
    (f := fun d => ((c.settled d).writeCell v).advance) hr hw rfl rfl fun _ => if_pos hatCell
  have hr₁ : ((c.settled d₁).writeCell v).refusing = false := by simpa [Chip.writeCell_eq, Chip.settled] using hr
  have hpayload : ddramPayload (c.ac.setWidth 8) = c.ac := extract_setWidth c.ac
  obtain ⟨n₂, t₂, d₂, hn₂, ht₂, hres₂⟩ := ht₁.send (j := .wSetdd c.ac)
    (f := fun d => { (((c.settled d₁).writeCell v).advance.startBusy).settled d with ac := c.ac, sel := .ddram }) hr₁ hd
    (congrArg (fun a => sendWord (wordSetdd a)) hpayload) rfl fun _ => rfl
  obtain ⟨n₃, t₃, hn₃, hidle, hhost, hres₃⟩ := ht₂.readByte hr₁ hread hcell
  have hbyte : Memory.read ((c.settled d₁).writeCell v).ddram c.ac.toNat = v :=
    (Chip.read_ddram_writeCell (c := c.settled d₁) hwf v c.ac.toNat).trans (if_pos ⟨hsel, rfl⟩)
  refine ⟨n₁ + (n₂ + n₃), t₃, by rw [runSteps_add hn₁, runSteps_add hn₂, hn₃], hidle, hhost, ?_⟩
  rw [hres₃, hres₂, hres₁, List.append_assoc, List.append_assoc]
  exact congrArg (fun b => s.results ++ ([.nothing] ++ ([.nothing] ++ [.byte b]))) hbyte

end Sys2Proof.Machine
end
